-- ==== Sys2Proof/Word.lean ====
section
/-! DEFINITION. The words of the baby-aes key-search block: the byte, the 8-bit window address and the 17-bit host
transaction word (spec 00_scope.md section 5, 30_encoding.md R61). Nothing here computes. -/

namespace Sys2Proof

/-- A byte, 8 bits, always unsigned (00_scope.md section 5, R8(f)). -/
abbrev Byte := BitVec 8

/-- A byte address in the host register window, 0x00 to 0xFF (R40, R41 `h_addr`). -/
abbrev Addr := BitVec 8

/-- The 17-bit `HT` word: the port's signal values during one transaction (R61). -/
abbrev HostWord := BitVec 17

/-- A byte array of length `n`; element 0 comes first (00_scope.md section 5). -/
abbrev Bytes (n : Nat) := Vector Byte n

/-- A 16-byte cipher block or key (R6 `BLKBYTES`, `KEYBYTES`). -/
abbrev Block := Bytes 16

end Sys2Proof
end

