-- ==== Sys2Proof/Syntax.lean ====
section
/-! DEFINITION. The block's operations: one constructor for each row of spec/opcode_table.json (30_encoding.md R63). -/

namespace Sys2Proof

/-- The twelve operations of the block (R63). The fields of the two host transactions are the fields of format `HT` (R61);
the commands and the engine steps have no operand fields (R62, R60(c)). -/
inductive Instr where
  /-- `HRD a`: host read of the byte at `a` (R140). On a read the port ignores `WDATA` (R61), so it is no operand (R66). -/
  | hrd (addr : Addr)
  /-- `HWR a, v`: host write of the byte `v` at `a` (R141). -/
  | hwr (addr : Addr) (data : Byte)
  /-- `NOP`, command byte 0x00 (R143). -/
  | nop
  /-- `INIT_CD`, command byte 0x01 (R103). -/
  | initCd
  /-- `INIT_LF`, command byte 0x02 (R122). -/
  | initLf
  /-- `STEP`, command byte 0x03 (R144). -/
  | step
  /-- `RUN`, command byte 0x04 (R145). -/
  | run
  /-- `STOP`, command byte 0x05 (R146). -/
  | stop
  /-- `TEST`, command byte 0x06 (R88). -/
  | test
  /-- `CLEAR`, command byte 0x07 (R147). -/
  | clear
  /-- `CD_STEP`, the engine step that `MODE = 1` selects (R105). -/
  | cdStep
  /-- `LF_STEP`, the engine step that `MODE = 2` selects (R124). -/
  | lfStep
deriving DecidableEq, Repr

end Sys2Proof
end

