-- ==== Sys2Proof/WellFormed.lean ====
section
/-! DEFINITION. Which of the three encoding formats an operation belongs to (30_encoding.md R60), and the one
well-formedness check there is: an operation is encoded in its own format only. Every operand field is as wide as its
encoding field (8 bits), so no operand value is ill-formed (R45, R65, R66). -/

namespace Sys2Proof

/-- The three formats of R60. -/
inductive Format where
  /-- `HT`, the 17-bit host transaction (R61). -/
  | ht
  /-- `CB`, the 8-bit command byte (R62). -/
  | cb
  /-- `ES`, the engine step, selected by the 2-bit `MODE` and encoded in no word (R60(c), R64). -/
  | es
deriving DecidableEq, Repr

/-- The number of bits `match` and `mask` of R63 are written on. -/
def Format.bits : Format → Nat
  | .ht => 17
  | .cb => 8
  | .es => 2

/-- The `Format` column of R63. -/
def Instr.format : Instr → Format
  | .hrd _ => .ht
  | .hwr _ _ => .ht
  | .nop => .cb
  | .initCd => .cb
  | .initLf => .cb
  | .step => .cb
  | .run => .cb
  | .stop => .cb
  | .test => .cb
  | .clear => .cb
  | .cdStep => .es
  | .lfStep => .es

/-- `i` is an operation of format `f`. The same number stands for different operations in different formats (1 is `HRD 0x00`
as an `HT` word, `INIT_CD` as a command byte, `CD_STEP` as a `MODE`), so a word means something only within its format. -/
def Instr.wellFormedIn (f : Format) (i : Instr) : Bool := i.format == f

end Sys2Proof
end

