-- ==== Sys2Proof/Decode.lean ====
section
/-! DEFINITION. Decoding and encoding of the three formats of 30_encoding.md: `HT` words (R61), command bytes (R62, R63,
R66) and the engine-step selection by `MODE` (R64). Decoding is total and rejects by name. -/

namespace Sys2Proof

/-- The commands: the operations of format `CB` (R62, R63), in opcode order. -/
inductive Command where
  | nop | initCd | initLf | step | run | stop | test | clear
deriving DecidableEq, Repr

/-- The row of the opcode table a command is. -/
def Command.toInstr : Command → Instr
  | .nop => .nop
  | .initCd => .initCd
  | .initLf => .initLf
  | .step => .step
  | .run => .run
  | .stop => .stop
  | .test => .test
  | .clear => .clear

/-- Why a word is not an operation of a format. -/
inductive DecodeError where
  /-- The number does not fit the format's width. -/
  | wordTooWide (f : Format) (w : Nat)
  /-- A command byte 0x08 to 0xFF: no command is defined for it (R66). Writing one to `CMD` has an effect all the same:
  it is dropped with `FLAGS.ILLCMD` (R194), see `execHwr`. -/
  | undefinedOpcode (op : Byte)
  /-- `MODE` 0 or 3, which selects no engine step (R64). -/
  | modeSelectsNothing (mode : BitVec 2)
deriving DecidableEq, Repr

/-- Decoding an `HT` word (R61): every one of the 2^17 words is an `HRD` or an `HWR` (R66); of an `HRD`, `WDATA` is
ignored. -/
def decodeHt (w : HostWord) : Instr :=
  if w.getLsbD 16 then .hwr (w.extractLsb' 8 8) (w.extractLsb' 0 8) else .hrd (w.extractLsb' 8 8)

/-- Decoding a command byte (R62, R63): the whole byte is the opcode; 0x08 to 0xFF are not defined (R66). -/
def decodeCommand (op : Byte) : Except DecodeError Command :=
  match op.toNat with
  | 0 => .ok .nop
  | 1 => .ok .initCd
  | 2 => .ok .initLf
  | 3 => .ok .step
  | 4 => .ok .run
  | 5 => .ok .stop
  | 6 => .ok .test
  | 7 => .ok .clear
  | _ => .error (.undefinedOpcode op)

/-- Decoding a command byte to the row of the opcode table. -/
def decodeCb (op : Byte) : Except DecodeError Instr := (decodeCommand op).map Command.toInstr

/-- Engine-step selection (R64): `MODE = 1` selects `CD_STEP`, `MODE = 2` selects `LF_STEP`, 0 and 3 select nothing. -/
def decodeEs (mode : BitVec 2) : Except DecodeError Instr :=
  match mode.toNat with
  | 1 => .ok .cdStep
  | 2 => .ok .lfStep
  | _ => .error (.modeSelectsNothing mode)

/-- The decoder: the operation a number stands for in a format. Total; a number too wide for the format is rejected. -/
def decodeWord (f : Format) (w : Nat) : Except DecodeError Instr :=
  if w < 2 ^ f.bits then
    match f with
    | .ht => .ok (decodeHt (BitVec.ofNat 17 w))
    | .cb => decodeCb (BitVec.ofNat 8 w)
    | .es => decodeEs (BitVec.ofNat 2 w)
  else .error (.wordTooWide f w)

/-- Which format a word of the opcode table with `nbits` bits is read in. A table row of format `CB` has 8 bits, of
format `ES` 2, of format `HT` 17 (24 in whole bytes). In whole bytes the `ES` rows have 8 bits too and 1 and 2 are then
command bytes: an `ES` row is encoded in no word (R60(c)), so a byte is a command byte. Assumption log 4. -/
def formatOfBits (nbits : Nat) : Format :=
  if nbits ≤ 2 then .es else if nbits ≤ 8 then .cb else .ht

/-- The operation the decoder reads from a word numbered as spec/opcode_table.json numbers it. -/
def decodeTableWord (nbits w : Nat) : Option Instr := (decodeWord (formatOfBits nbits) w).toOption

/-- The encoder: the number of `i` in its own format, from the `Match` column of R63 and the fields of R61. An `HRD` is
written with `WDATA` 0x00 (R61). -/
def encode : Instr → Nat
  | .hrd a => a.toNat * 2 ^ 8
  | .hwr a v => 2 ^ 16 + a.toNat * 2 ^ 8 + v.toNat
  | .nop => 0x00
  | .initCd => 0x01
  | .initLf => 0x02
  | .step => 0x03
  | .run => 0x04
  | .stop => 0x05
  | .test => 0x06
  | .clear => 0x07
  | .cdStep => 0b01
  | .lfStep => 0b10

/-- The `HT` word of a read of `a` (R61). -/
def readWord (a : Addr) : HostWord := BitVec.ofNat 17 (encode (.hrd a))

/-- The `HT` word of a write of `v` at `a` (R61). -/
def writeWord (a : Addr) (v : Byte) : HostWord := BitVec.ofNat 17 (encode (.hwr a v))

/-- A command as an `HT` word: `0x100` followed by the two digits of its opcode (R62). -/
def commandWord (c : Command) : HostWord := writeWord 0x00 (BitVec.ofNat 8 (encode c.toInstr))

end Sys2Proof
end

