-- ==== Sys2Proof/Machine/Aes.lean ====
section
/-! DEFINITION. `AES128_DEC`, the decrypt primitive the Oracle calls (40_oracle.md R82), by the algorithm of
44_aes128_decrypt.md (R170 to R181), and the forward cipher `AES128_ENC`, which the block never calls (R180). The whole
file rests on text the spec marks as general knowledge (93_implementation_defined.md G1): assumption log 6. -/

namespace Sys2Proof.Machine

open Sys2Proof

/-- `xtime(a)`, multiplication by 0x02 in GF(2^8) modulo 0x11B (R172). -/
def xtime (a : Byte) : Byte := if a.getLsbD 7 then (a <<< 1) ^^^ 0x1B#8 else a <<< 1

/-- The first `n` terms of the product: the XOR of `xtime^i(a)` over the set bits `i` of `b` below `n`. -/
def gmulFrom (a b : Byte) : Nat → Byte
  | 0 => 0
  | n + 1 => (if b.getLsbD 0 then a else 0) ^^^ gmulFrom (xtime a) (b >>> 1) n

/-- `a • b` in GF(2^8) (R172). -/
def gmul (a b : Byte) : Byte := gmulFrom a b 8

/-- `SBOX` (R173), a row of the table a line, column 0 the most significant byte. -/
def sboxRows : List Nat :=
  [0x637C777BF26B6FC53001672BFED7AB76,
   0xCA82C97DFA5947F0ADD4A2AF9CA472C0,
   0xB7FD9326363FF7CC34A5E5F171D83115,
   0x04C723C31896059A071280E2EB27B275,
   0x09832C1A1B6E5AA0523BD6B329E32F84,
   0x53D100ED20FCB15B6ACBBE394A4C58CF,
   0xD0EFAAFB434D338545F9027F503C9FA8,
   0x51A3408F929D38F5BCB6DA2110FFF3D2,
   0xCD0C13EC5F974417C4A77E3D645D1973,
   0x60814FDC222A908846EEB814DE5E0BDB,
   0xE0323A0A4906245CC2D3AC629195E479,
   0xE7C8376D8DD54EA96C56F4EA657AAE08,
   0xBA78252E1CA6B4C6E8DD741F4BBD8B8A,
   0x703EB5664803F60E613557B986C11D9E,
   0xE1F8981169D98E949B1E87E9CE5528DF,
   0x8CA1890DBFE6426841992D0FB054BB16]

/-- `INVSBOX` (R173), laid out as `sboxRows`. -/
def invSboxRows : List Nat :=
  [0x52096AD53036A538BF40A39E81F3D7FB,
   0x7CE339829B2FFF87348E4344C4DEE9CB,
   0x547B9432A6C2233DEE4C950B42FAC34E,
   0x082EA16628D924B2765BA2496D8BD125,
   0x72F8F66486689816D4A45CCC5D65B692,
   0x6C704850FDEDB9DA5E154657A78D9D84,
   0x90D8AB008CBCD30AF7E45805B8B34506,
   0xD02C1E8FCA3F0F02C1AFBD0301138A6B,
   0x3A9111414F67DCEA97F2CFCEF0B4E673,
   0x96AC7422E7AD3585E2F937E81C75DF6E,
   0x47F11A711D29C5896FB7620EAA18BE1B,
   0xFC563E4BC6D279209ADBC0FE78CD5AF4,
   0x1FDDA8338807C731B11210592780EC5F,
   0x60517FA919B54A0D2DE57A9F93C99CEF,
   0xA0E03B4DAE2AF5B0C8EBBB3C83539961,
   0x172B047EBA77D626E169146355210C7D]

/-- The entry at row `b / 16`, column `b mod 16` of a table laid out as `sboxRows`. -/
def tableByte (rows : List Nat) (b : Byte) : Byte :=
  BitVec.ofNat 8 (rows.getD (b.toNat / 16) 0 >>> (8 * (15 - b.toNat % 16)))

/-- `SBOX[a]` (R173). -/
def sbox (a : Byte) : Byte := tableByte sboxRows a

/-- `INVSBOX[a]` (R173). -/
def invSbox (a : Byte) : Byte := tableByte invSboxRows a

/-- A four-byte word of the key schedule (R171). -/
abbrev Word4 := Bytes 4

/-- `RCON[j] = xtime^(j-1)(0x01)` for `j ≥ 1` (R174). -/
def rcon : Nat → Byte
  | 0 => 0
  | 1 => 0x01
  | j + 2 => xtime (rcon (j + 1))

/-- Byte-by-byte `XOR` of two arrays. -/
def xorBytes (x y : Bytes n) : Bytes n := Vector.ofFn fun i => x[i] ^^^ y[i]

/-- The `t` of R174 that is `XOR`ed into `w[i-4]`: `w[i-1]`, rotated, substituted and `XOR`ed with `RCON` when `i` is a
multiple of 4. -/
def scheduleTerm (i : Nat) (prev : Word4) : Word4 :=
  if i % 4 = 0 then #v[sbox prev[1] ^^^ rcon (i / 4), sbox prev[2], sbox prev[3], sbox prev[0]] else prev

/-- The word `w[i]` from the words before it, newest first: `w[i-4] XOR t` (R174). -/
def nextWord (i : Nat) (ws : List Word4) : Word4 :=
  xorBytes (ws.getD 3 (Vector.replicate 4 0)) (scheduleTerm i (ws.getD 0 (Vector.replicate 4 0)))

/-- `n` more words of the key schedule, the next one being `w[i]`; newest first (R174). -/
def expandFrom (i : Nat) (ws : List Word4) : Nat → List Word4
  | 0 => ws
  | n + 1 => expandFrom (i + 1) (nextWord i ws :: ws) n

/-- The words `w[0]` to `w[43]` of the key `k`, in order (R171, R174). -/
def keyWords (k : Block) : List Word4 :=
  (expandFrom 4 [#v[k[12], k[13], k[14], k[15]], #v[k[8], k[9], k[10], k[11]], #v[k[4], k[5], k[6], k[7]],
    #v[k[0], k[1], k[2], k[3]]] 40).reverse

/-- The round key `rk[r]`: byte `i` is byte `i mod 4` of `w[4r + i / 4]` (R174). -/
def roundKey (ws : List Word4) (r : Nat) : Block :=
  Vector.ofFn fun i => (ws.getD (4 * r + i.val / 4) (Vector.replicate 4 0))[i.val % 4]'(Nat.mod_lt _ (by decide))

/-- `AddRoundKey` (R175). -/
def addRoundKey (s rk : Block) : Block := xorBytes s rk

/-- `InvShiftRows` (R176): `s'[r][c] = s[r][(c - r) mod 4]`, the byte `s[r][c]` standing at index `r + 4c` (R171). -/
def invShiftRows (s : Block) : Block :=
  Vector.ofFn fun i => s[i.val % 4 + 4 * ((i.val / 4 + 4 - i.val % 4) % 4)]'(by omega)

/-- `ShiftRows` (R176): `s'[r][c] = s[r][(c + r) mod 4]`. -/
def shiftRows (s : Block) : Block :=
  Vector.ofFn fun i => s[i.val % 4 + 4 * ((i.val / 4 + i.val % 4) % 4)]'(by omega)

/-- `InvSubBytes` (R177). -/
def invSubBytes (s : Block) : Block := Vector.ofFn fun i => invSbox s[i]

/-- `SubBytes` (R177). -/
def subBytes (s : Block) : Block := Vector.ofFn fun i => sbox s[i]

/-- A column transformation with the circulant coefficients `m0 m1 m2 m3`: row `r` of a column becomes
`m0•a[r] XOR m1•a[r+1] XOR m2•a[r+2] XOR m3•a[r+3]`, rows modulo 4 (the pattern of R178). -/
def circulant (m0 m1 m2 m3 : Byte) (s : Block) : Block :=
  Vector.ofFn fun i =>
    gmul (s[4 * (i.val / 4) + i.val % 4]'(by omega)) m0 ^^^ gmul (s[4 * (i.val / 4) + (i.val + 1) % 4]'(by omega)) m1 ^^^
      gmul (s[4 * (i.val / 4) + (i.val + 2) % 4]'(by omega)) m2 ^^^ gmul (s[4 * (i.val / 4) + (i.val + 3) % 4]'(by omega)) m3

/-- `InvMixColumns` (R178). -/
def invMixColumns (s : Block) : Block := circulant 0x0E 0x0B 0x0D 0x09 s

/-- `MixColumns` (R178). -/
def mixColumns (s : Block) : Block := circulant 0x02 0x03 0x01 0x01 s

/-- One round of the inverse cipher (R179). -/
def invRound (s rk : Block) : Block := invMixColumns (addRoundKey (invSubBytes (invShiftRows s)) rk)

/-- The rounds `n` down to 1 of the inverse cipher (R179). -/
def invRounds (ws : List Word4) : Nat → Block → Block
  | 0, s => s
  | n + 1, s => invRounds ws n (invRound s (roundKey ws (n + 1)))

/-- The inverse cipher on the key-schedule words `ws` (R179). -/
def aesInverse (ws : List Word4) (c : Block) : Block :=
  addRoundKey (invSubBytes (invShiftRows (invRounds ws 9 (addRoundKey c (roundKey ws 10))))) (roundKey ws 0)

/-- `AES128_DEC(c, k)` (R82, R170, R179). -/
@[irreducible] def aes128Dec (c k : Block) : Block := aesInverse (keyWords k) c

/-- One round of the forward cipher (R180). -/
def fwdRound (s rk : Block) : Block := addRoundKey (mixColumns (shiftRows (subBytes s))) rk

/-- The rounds `r` to `r + n - 1` of the forward cipher (R180). -/
def fwdRounds (ws : List Word4) (r : Nat) : Nat → Block → Block
  | 0, s => s
  | n + 1, s => fwdRounds ws (r + 1) n (fwdRound s (roundKey ws r))

/-- The forward cipher on the key-schedule words `ws` (R180). -/
def aesForward (ws : List Word4) (p : Block) : Block :=
  addRoundKey (shiftRows (subBytes (fwdRounds ws 1 9 (addRoundKey p (roundKey ws 0))))) (roundKey ws 10)

/-- `AES128_ENC(p, k)` (R170, R180): for building test ciphertexts; no operation of the block calls it. -/
def aes128Enc (p k : Block) : Block := aesForward (keyWords k) p

end Sys2Proof.Machine
end

