-- ==== Sys2Proof/Machine/Event.lean ====
section
/-! DEFINITION. The atomic events of a run of the block (20_memory.md R50, 43_control_and_host.md R148,
70_reset_and_hazards.md R220). -/

namespace Sys2Proof.Machine

open Sys2Proof

/-- The atomic events of a run (R50, R148, R220). -/
inductive Event where
  /-- One host transaction, as the port's signal values `h_we`, `h_addr`, `h_wdata` (R41, R61). -/
  | transaction (w : HostWord)
  /-- The engine's turn: it performs one step if `STATE` is RUN and nothing otherwise (R148). -/
  | engineTurn
  /-- The reset input `rst` (R220). -/
  | rst
deriving DecidableEq, Repr

end Sys2Proof.Machine
end

