-- ==== Sys2Proof/Config.lean ====
section
/-! DEFINITION. The free values, which the spec leaves open: what a data-register byte that holds the unspecified value `⊥`
turns out to be when something reads it (10_state.md R30, 93_implementation_defined.md U1 to U3), and how host transactions,
engine steps and resets interleave (20_memory.md R50, 43_control_and_host.md R148, 93_implementation_defined.md U4). -/

namespace Sys2Proof

/-- The FREE VALUE of the model: what the byte at window address `a` turns out to be when it holds `⊥` and is read on
occasion `draw`. It has no body, so nothing can be proved about it. `State.draws` numbers the occasions, so two reads of the
same `⊥` byte are two different occasions and need not agree (R30(a)). Assumption log 2. -/
opaque Config.freeByte : (draw : Nat) → (a : Addr) → Byte

/-- The FREE INTERLEAVING: the events of round `n` of the world, any finite list of them, none included. After the events of a
round the engine has a turn, and the next round begins. It has no body, so nothing can be proved about it: the host may transact
for ever, fall silent, or reset the block, and every fair interleaving of R148 is some such family of rounds. Assumption log 3. -/
opaque Config.eventRound : (n : Nat) → List Machine.Event

end Sys2Proof
end

