-- ==== Sys2Proof/Machine/State.lean ====
section
/-! DEFINITION. The state of the block as plain data: the sixteen registers of 10_state.md R10, and the model's own four
fields (the events to come in this round, how many rounds have begun, the byte the host last read, the number of the next free
value). -/

namespace Sys2Proof.Machine

open Sys2Proof

/-- The contents of a data-register byte or integer: its bits, and whether the rules specify them. `specified = false` is
the spec's `⊥` (R30): the value is then a placeholder that no operation looks at. A reader of a `⊥` byte gets a free value
(`Data.resolve`). -/
structure Data (w : Nat) where
  value : BitVec w
  specified : Bool
deriving DecidableEq, Repr

/-- The one datum that stands for `⊥`. The zero is a placeholder (assumption log 1). -/
def Data.bot (w : Nat) : Data w := { value := 0#w, specified := false }

/-- A specified value. -/
def Data.known (v : BitVec w) : Data w := { value := v, specified := true }

/-- `STATE` (R22). The codes 6 and 7 are never held (R22, U10), so they have no constructor. -/
inductive ControlState where
  /-- 0: no search exists; the host may write inputs. -/
  | idle
  /-- 1: a search exists and the engine is not stepping. -/
  | paused
  /-- 2: a search exists and the engine is stepping on its own. -/
  | run
  /-- 3: a step's Oracle call accepted. Terminal. -/
  | found
  /-- 4: the countdown rejected every candidate down to the floor. Terminal. -/
  | exhausted
  /-- 5: a command raised InvalidInputLength. Terminal. -/
  | error
deriving DecidableEq, Repr

/-- `MODE` (R24). The code 3 is never held (R24, U10), so it has no constructor. -/
inductive Mode where
  /-- 0: no search. -/
  | none
  /-- 1: the Countdown Enumerator. -/
  | countdown
  /-- 2: the LFSR Enumerator. -/
  | lfsr
deriving DecidableEq, Repr

/-- `FLAGS` (R25), bit 0 to bit 3. -/
structure Flags where
  /-- Bit 0: the last Oracle call accepted. -/
  acc : Bool
  /-- Bit 1: the last Oracle call decrypted block 1. -/
  b1dec : Bool
  /-- Bit 2, sticky: a command was dropped as illegal. -/
  illcmd : Bool
  /-- Bit 3, sticky: a host data write was dropped because `STATE` was not IDLE. -/
  illwr : Bool
deriving DecidableEq, Repr

/-- A fault would stop the machine. The block has none: its one exception, InvalidInputLength, is a transition to
`STATE = ERROR` with the machine going on (R190, R198), and no access, command or engine step can stop it (R45, R193 to
R195). The type therefore has no constructor; that no step faults is safe. -/
inductive Fault where
deriving DecidableEq, Repr

/-- The ways the model can refuse to give a next state. -/
inductive Refusal where
  /-- The instruction has no meaning in the model yet. Raised by an arm of `exec`; no arm does. Safe. -/
  | notModelled (mnemonic : String)
  /-- An engine step was due while `MODE` selects no step. Raised by `STEP` in PAUSED and by the engine in RUN when `MODE`
  is 0: R64 says that `MODE` 0 selects nothing, cannot be met, and asks a model's last arm to refuse. Safe. -/
  | modeSelectsNothing
deriving DecidableEq, Repr

/-- The whole state of the block (R10), with the model's own fields last. -/
structure State where
  /-- `IV`, 16 bytes: the known key prefix (R11). -/
  iv : Vector (Data 8) 16
  /-- `IVLEN`, 8 bits: the IV's length in bytes (R12). -/
  ivlen : BitVec 8
  /-- `CT`, 32 bytes: ciphertext blocks 0 and 1 (R13). -/
  ct : Vector (Data 8) 32
  /-- `CTBLKS`, 8 bits: how many ciphertext blocks the host declares (R14). -/
  ctblks : BitVec 8
  /-- `KEY`, 16 bytes: the candidate key, and the result (R15). -/
  key : Vector (Data 8) 16
  /-- `PT`, 32 bytes: the Oracle's plaintext (R16). -/
  pt : Vector (Data 8) 32
  /-- `PREFIX`, 16 bytes: the fixed prefix (R17). -/
  prefixReg : Vector (Data 8) 16
  /-- `CNT`, 64 bits: the countdown counter (R18). -/
  cnt : Data 64
  /-- `FLOOR`, 64 bits: the countdown floor (R19). -/
  floor : Data 64
  /-- `LFSR`, 40 bits: the shift register (R20). -/
  lfsr : Data 40
  /-- `STATE`, 3 bits: the control state (R22). -/
  state : ControlState
  /-- `CAUSE`, 8 bits: why `STATE` is ERROR (R23). -/
  cause : BitVec 8
  /-- `MODE`, 2 bits: which enumerator the search uses (R24). -/
  mode : Mode
  /-- `FLAGS`, 4 bits (R25). -/
  flags : Flags
  /-- `STEPS`, 64 bits: the Oracle-call counter (R26). -/
  steps : BitVec 64
  /-- `DECS`, 64 bits: the decrypt-call counter (R27). -/
  decs : BitVec 64
  /-- The model's own: the events still to come in the current round, next first (R50(a)). When none is left the engine has
  the turn and the next round begins (`State.advance`). Assumption log 3. -/
  schedule : List Event
  /-- The model's own: how many rounds of `Config.eventRound` have begun (R148). Assumption log 3. -/
  rounds : Nat
  /-- The model's own: `h_rdata`, the byte the last `HRD` returned to the host (R41). Assumption log 5. -/
  rdata : Byte
  /-- The model's own: how many occasions have read a `⊥`; the index of the next free value. Assumption log 2. -/
  draws : Nat
deriving DecidableEq, Repr

/-- The state right after reset (R32, R220): control registers zero, every data register `⊥`; no event waiting,
no round of the world begun. -/
def State.reset : State where
  iv := Vector.replicate 16 (Data.bot 8)
  ivlen := 0
  ct := Vector.replicate 32 (Data.bot 8)
  ctblks := 0
  key := Vector.replicate 16 (Data.bot 8)
  pt := Vector.replicate 32 (Data.bot 8)
  prefixReg := Vector.replicate 16 (Data.bot 8)
  cnt := Data.bot 64
  floor := Data.bot 64
  lfsr := Data.bot 40
  state := .idle
  cause := 0x00
  mode := .none
  flags := { acc := false, b1dec := false, illcmd := false, illwr := false }
  steps := 0
  decs := 0
  schedule := []
  rounds := 0
  rdata := 0x00
  draws := 0

/-- What a step answers. -/
abbrev Answer := Host.Outcome State Fault Refusal

end Sys2Proof.Machine
end

