-- ==== Sys2Proof/Machine/Flags.lean ====
section
/-! DEFINITION. Every computation on `FLAGS` (10_state.md R25; 40_oracle.md R87; 60_exceptions.md R194, R195). -/

namespace Sys2Proof.Machine

/-- All four flags 0: reset and `CLEAR` (R32, R147). -/
def Flags.zero : Flags := { acc := false, b1dec := false, illcmd := false, illwr := false }

/-- An Oracle call writes `ACC` and `B1DEC` together and no other flag (R87). -/
def Flags.setVerdict (f : Flags) (acc b1dec : Bool) : Flags := { f with acc := acc, b1dec := b1dec }

/-- A successful `INIT_CD` or `INIT_LF` clears `ACC` and `B1DEC` (R103, R122). -/
def Flags.clearVerdict (f : Flags) : Flags := f.setVerdict false false

/-- A dropped command sets `ILLCMD` (R194). -/
def Flags.setIllCmd (f : Flags) : Flags := { f with illcmd := true }

/-- A dropped data write sets `ILLWR` (R195). -/
def Flags.setIllWr (f : Flags) : Flags := { f with illwr := true }

/-- The byte a host reads at 0x04: bit 0 `ACC`, bit 1 `B1DEC`, bit 2 `ILLCMD`, bit 3 `ILLWR`, bits 7:4 zero (R42). -/
def Flags.toByte (f : Flags) : Byte :=
  0#4 ++ BitVec.ofBool f.illwr ++ BitVec.ofBool f.illcmd ++ BitVec.ofBool f.b1dec ++ BitVec.ofBool f.acc

end Sys2Proof.Machine
end

