-- ==== Sys2Proof/Machine/Parameters.lean ====
section
/-! DEFINITION. The parameters of 00_scope.md R6 and R7 that an operation reads, at the values this spec takes. The other
two of R7 are the shape of an operation: `LF_TEST_AFTER_ADVANCE = true` is the order of `State.lfStep` (D14) and
`LF_BOUND = none` is the absence of an exhaustion test there (D16). -/

namespace Sys2Proof.Machine

open Sys2Proof

/-- `FILL` (R6, R100, D12): fills the prefix and the ceiling where the IV gives no byte. -/
def fill : Byte := 0xFF

/-- `FLOORFILL` (R7, R102, D11): fills the floor where the IV gives no byte. -/
def floorFill : Byte := 0x00

/-- `PR_LO` (R6): the lowest accepted plaintext byte. -/
def prLo : Byte := 0x20

/-- `DEL_ACCEPTED` (R7, C1, D10): whether 0x7F is accepted. -/
def delAccepted : Bool := false

/-- `PR_HI` (R7, C1, D10): the highest accepted plaintext byte. -/
def prHi : Byte := if delAccepted then 0x7F else 0x7E

/-- `SEED` (R6): the register value at the start of an LFSR search. -/
def seed : BitVec 40 := 1

/-- `IVMAX` (R6): the largest legal IV length, the bound of `INIT_CD` (R191). -/
def ivMax : Nat := 16

/-- `LF_PREFIX` (R6): the key bytes taken from the fixed prefix in LFSR mode, and the largest IV length `INIT_LF` accepts
(R191, D15). -/
def lfPrefix : Nat := 11

/-- `CD_PREFIX` (R6): the key bytes taken from the fixed prefix in countdown mode. -/
def cdPrefix : Nat := 8

/-- `NBLK` (R6): the ciphertext blocks the Oracle uses, the least `CTBLKS` that is no error (R191). -/
def nBlk : Nat := 2

end Sys2Proof.Machine
end

