-- ==== Sys2Proof/Machine/Operands.lean ====
section
/-! DEFINITION. The operand forms: the window's register map (20_memory.md R42) and the big-endian packing of integers into
bytes (R43, 00_scope.md section 5). -/

namespace Sys2Proof.Machine

open Sys2Proof

/-- `be64(v)`: byte 0 is the most significant. -/
def be64 (v : BitVec 64) : Bytes 8 := Vector.ofFn fun j => v.extractLsb' (56 - 8 * j.val) 8

/-- `unbe64(B)`, the inverse of `be64`. -/
def unbe64 (b : Bytes 8) : BitVec 64 := b[0] ++ b[1] ++ b[2] ++ b[3] ++ b[4] ++ b[5] ++ b[6] ++ b[7]

/-- `be40(v)`: byte 0 is the most significant. -/
def be40 (v : BitVec 40) : Bytes 5 := Vector.ofFn fun j => v.extractLsb' (32 - 8 * j.val) 8

/-- `unbe40(B)`, the inverse of `be40`. -/
def unbe40 (b : Bytes 5) : BitVec 40 := b[0] ++ b[1] ++ b[2] ++ b[3] ++ b[4]

/-- What a window address names (R42). -/
inductive Loc where
  | cmd | state | cause | mode | flags | ivlen | ctblks
  | iv (i : Fin 16) | ct (i : Fin 32) | key (i : Fin 16) | pt (i : Fin 32) | prefixReg (i : Fin 16)
  | cnt (j : Fin 8) | floor (j : Fin 8) | lfsr (j : Fin 5) | steps (j : Fin 8) | decs (j : Fin 8)
  /-- 0x07 to 0x0F, 0x95 to 0x97, 0xA8 to 0xFF (R48). -/
  | reserved
deriving DecidableEq, Repr

/-- The register map: what the address `a` names (R42). -/
def locOf (a : Addr) : Loc :=
  let n := a.toNat
  if n = 0x00 then .cmd
  else if n = 0x01 then .state
  else if n = 0x02 then .cause
  else if n = 0x03 then .mode
  else if n = 0x04 then .flags
  else if n = 0x05 then .ivlen
  else if n = 0x06 then .ctblks
  else if h : 0x10 ≤ n ∧ n < 0x20 then .iv ⟨n - 0x10, by omega⟩
  else if h : 0x20 ≤ n ∧ n < 0x40 then .ct ⟨n - 0x20, by omega⟩
  else if h : 0x40 ≤ n ∧ n < 0x50 then .key ⟨n - 0x40, by omega⟩
  else if h : 0x50 ≤ n ∧ n < 0x70 then .pt ⟨n - 0x50, by omega⟩
  else if h : 0x70 ≤ n ∧ n < 0x80 then .prefixReg ⟨n - 0x70, by omega⟩
  else if h : 0x80 ≤ n ∧ n < 0x88 then .cnt ⟨n - 0x80, by omega⟩
  else if h : 0x88 ≤ n ∧ n < 0x90 then .floor ⟨n - 0x88, by omega⟩
  else if h : 0x90 ≤ n ∧ n < 0x95 then .lfsr ⟨n - 0x90, by omega⟩
  else if h : 0x98 ≤ n ∧ n < 0xA0 then .steps ⟨n - 0x98, by omega⟩
  else if h : 0xA0 ≤ n ∧ n < 0xA8 then .decs ⟨n - 0xA0, by omega⟩
  else .reserved

/-- The W-IDLE registers: those a host data write can store into (R42, R49). -/
def Loc.hostWritable : Loc → Bool
  | .ivlen => true
  | .ctblks => true
  | .iv _ => true
  | .ct _ => true
  | .key _ => true
  | .cmd => false
  | .state => false
  | .cause => false
  | .mode => false
  | .flags => false
  | .pt _ => false
  | .prefixReg _ => false
  | .cnt _ => false
  | .floor _ => false
  | .lfsr _ => false
  | .steps _ => false
  | .decs _ => false
  | .reserved => false

/-- The 3-bit code of `STATE` (R22). -/
def ControlState.code : ControlState → BitVec 3
  | .idle => 0
  | .paused => 1
  | .run => 2
  | .found => 3
  | .exhausted => 4
  | .error => 5

/-- The 2-bit code of `MODE` (R24). -/
def Mode.code : Mode → BitVec 2
  | .none => 0
  | .countdown => 1
  | .lfsr => 2

/-- The mode with a given code; the code 3, which is never held, gives NONE. -/
def modeOfCode (c : BitVec 2) : Mode :=
  match c.toNat with
  | 1 => .countdown
  | 2 => .lfsr
  | _ => .none

end Sys2Proof.Machine
end

