-- ==== Sys2Proof/Machine/Ops.lean ====
section
/-! DEFINITION. The named operations over the registers: reading a datum that may be `⊥` (10_state.md R30), the window's
reads and stores (20_memory.md R42, R47 to R49), dropping a command (60_exceptions.md R194), taking the block's one
exception (R198) and returning from it (R199, 43_control_and_host.md R147), and reset (70_reset_and_hazards.md R220). -/

namespace Sys2Proof.Machine

open Sys2Proof

/-- Reading a datum: its value, or `free` if it holds `⊥`. The only way any operation reads a data register. -/
def Data.resolve (d : Data w) (free : BitVec w) : BitVec w := if d.specified then d.value else free

/-- Reading a byte array whose element 0 stands at window address `base`, on occasion `draw`. -/
def resolveBytes (v : Vector (Data 8) n) (draw base : Nat) : Bytes n :=
  Vector.ofFn fun i => v[i].resolve (Config.freeByte draw (BitVec.ofNat 8 (base + i.val)))

/-- What 64 bits of `⊥` at window address `base` turn out to be on occasion `draw`. -/
def free64 (draw base : Nat) : BitVec 64 :=
  unbe64 (Vector.ofFn fun j => Config.freeByte draw (BitVec.ofNat 8 (base + j.val)))

/-- What 40 bits of `⊥` at window address `base` turn out to be on occasion `draw`. -/
def free40 (draw base : Nat) : BitVec 40 :=
  unbe40 (Vector.ofFn fun j => Config.freeByte draw (BitVec.ofNat 8 (base + j.val)))

/-- The elements `lo` to `hi - 1` of a byte array all hold a specified value. -/
def knownRange (v : Vector (Data 8) n) (lo hi : Nat) : Bool :=
  decide (∀ i : Fin n, lo ≤ i.val → i.val < hi → v[i].specified = true)

/-- A byte array with every element specified. -/
def knownBytes (b : Bytes n) : Vector (Data 8) n := Vector.ofFn fun i => Data.known b[i]

/-- A byte array with every element `⊥`. -/
def botBytes (n : Nat) : Vector (Data 8) n := Vector.ofFn fun _ => Data.bot 8

/-- What a register array becomes when an operation writes `b` to it: `b` where the operation's result is specified, `⊥`
in every element where it depends on a `⊥` (R30(b)). -/
def bytesOrBot (specified : Bool) (b : Bytes n) : Vector (Data 8) n := if specified then knownBytes b else botBytes n

/-- What an integer register becomes when an operation writes `v` to it (R30(b)). -/
def wordOrBot (specified : Bool) (v : BitVec w) : Data w := if specified then Data.known v else Data.bot w

/-- The registers an engine operation reads, as it sees them on the current occasion. -/
def State.ctBytes (s : State) : Bytes 32 := resolveBytes s.ct s.draws 0x20
def State.keyBytes (s : State) : Bytes 16 := resolveBytes s.key s.draws 0x40
def State.prefixBytes (s : State) : Bytes 16 := resolveBytes s.prefixReg s.draws 0x70
def State.cntValue (s : State) : BitVec 64 := s.cnt.resolve (free64 s.draws 0x80)
def State.floorValue (s : State) : BitVec 64 := s.floor.resolve (free64 s.draws 0x88)
def State.lfsrValue (s : State) : BitVec 40 := s.lfsr.resolve (free40 s.draws 0x90)

/-- One byte of an integer register that may hold `⊥`, byte 0 the most significant (R43(d)). -/
def Data.byteBE64 (d : Data 64) (j : Fin 8) : Data 8 := if d.specified then Data.known (be64 d.value)[j] else Data.bot 8
def Data.byteBE40 (d : Data 40) (j : Fin 5) : Data 8 := if d.specified then Data.known (be40 d.value)[j] else Data.bot 8

/-- The datum at a window location (R42): the register byte, the upper bits of `STATE`, `MODE` and `FLAGS` zero, 0x00 at
`CMD` (R28) and at a reserved address (R48). -/
def State.datumAt (s : State) : Loc → Data 8
  | .cmd => Data.known 0x00
  | .state => Data.known (s.state.code.setWidth 8)
  | .cause => Data.known s.cause
  | .mode => Data.known (s.mode.code.setWidth 8)
  | .flags => Data.known s.flags.toByte
  | .ivlen => Data.known s.ivlen
  | .ctblks => Data.known s.ctblks
  | .iv i => s.iv[i]
  | .ct i => s.ct[i]
  | .key i => s.key[i]
  | .pt i => s.pt[i]
  | .prefixReg i => s.prefixReg[i]
  | .cnt j => s.cnt.byteBE64 j
  | .floor j => s.floor.byteBE64 j
  | .lfsr j => s.lfsr.byteBE40 j
  | .steps j => Data.known (be64 s.steps)[j]
  | .decs j => Data.known (be64 s.decs)[j]
  | .reserved => Data.known 0x00

/-- `HostRead(a)` (R140): the byte the host gets, a free value if the byte holds `⊥` (R30(a)). -/
def State.hostRead (s : State) (a : Addr) : Byte := (s.datumAt (locOf a)).resolve (Config.freeByte s.draws a)

/-- The port after `HostRead(a)`: `h_rdata` is the byte read, and a read of a `⊥` uses up one free value. No register of
the block changes (R47). -/
def State.afterRead (s : State) (a : Addr) : State :=
  { s with
    rdata := s.hostRead a
    draws := if (s.datumAt (locOf a)).specified then s.draws else s.draws + 1 }

/-- Storing a byte at a W-IDLE location; at any other location nothing is stored (R42, R48). -/
def State.store (s : State) (l : Loc) (v : Byte) : State :=
  match l with
  | .ivlen => { s with ivlen := v }
  | .ctblks => { s with ctblks := v }
  | .iv i => { s with iv := s.iv.set i.val (Data.known v) }
  | .ct i => { s with ct := s.ct.set i.val (Data.known v) }
  | .key i => { s with key := s.key.set i.val (Data.known v) }
  | .cmd => s
  | .state => s
  | .cause => s
  | .mode => s
  | .flags => s
  | .pt _ => s
  | .prefixReg _ => s
  | .cnt _ => s
  | .floor _ => s
  | .lfsr _ => s
  | .steps _ => s
  | .decs _ => s
  | .reserved => s

/-- Dropping a data write (R195). -/
def State.dropWrite (s : State) : State := { s with flags := s.flags.setIllWr }

/-- Dropping a command (R194): `FLAGS.ILLCMD <- 1` and nothing else. -/
def State.dropCommand (s : State) : State := { s with flags := s.flags.setIllCmd }

/-- `HostWrite(a, v)` for `a` other than `CMD` (R141, R48, R49). -/
def State.dataWrite (s : State) (l : Loc) (v : Byte) : State :=
  if l.hostWritable then (if s.state = .idle then s.store l v else s.dropWrite) else s

/-- TAKING THE EXCEPTION: `raise InvalidInputLength()` (R198) sets `STATE` to ERROR and `CAUSE` to 0x01 and writes nothing
else: nothing is saved, there is no vector, and the command that raised it does nothing more. -/
def State.raiseInvalidInputLength (s : State) : State := { s with state := .error, cause := 0x01 }

/-- RETURNING FROM IT: `CLEAR` (R147, R199) gives IDLE with the control registers and counters zero; it restores nothing,
since nothing was saved, and leaves every data register, `IVLEN` and `CTBLKS` as they are. It is also how a search is ended. -/
def State.clearControl (s : State) : State :=
  { s with state := .idle, cause := 0x00, mode := .none, flags := Flags.zero, steps := 0, decs := 0 }

/-- The reset event (R220): the block's registers take their reset values; the events to come, the byte the port last
carried and the numberings of rounds and free values are not the block's and stay. -/
def State.applyReset (s : State) : State :=
  { State.reset with schedule := s.schedule, rounds := s.rounds, rdata := s.rdata, draws := s.draws }

/-- `IVLEN` is at most `max` and `CTBLKS` at least 2: the input check of `INIT_CD` (16) and `INIT_LF` (11) (R191). -/
def State.inputsOk (s : State) (max : Nat) : Bool :=
  decide (s.ivlen.toNat ≤ max ∧ nBlk ≤ s.ctblks.toNat)

/-- What `INIT_CD` and `INIT_LF` write to the control registers when their input check passes (R103, R122). -/
def State.startSearch (s : State) (m : Mode) : State :=
  { s with mode := m, steps := 0, decs := 0, flags := s.flags.clearVerdict, state := .paused }

end Sys2Proof.Machine
end

