-- ==== Sys2Proof/Machine/Oracle.lean ====
section
/-! DEFINITION. The Plausibility Oracle and the command `TEST` (40_oracle.md R80 to R88). -/

namespace Sys2Proof.Machine

open Sys2Proof

/-- `PRINTABLE(b)` (R80): `0x20 ≤ b ≤ 0x7E`, unsigned. -/
def printable (b : Byte) : Bool := decide (prLo ≤ b) && decide (b ≤ prHi)

/-- `BLOCKOK(p)` (R81): every byte is printable, scanned in ascending order (D18, unobservable). -/
def blockOk (p : Block) : Bool := p.toList.all printable

/-- Ciphertext block 0, `CT[0..16)` (R13). -/
def block0 (ct : Bytes 32) : Block := Vector.ofFn fun i => ct[i.val]'(by omega)

/-- Ciphertext block 1, `CT[16..32)` (R13). -/
def block1 (ct : Bytes 32) : Block := Vector.ofFn fun i => ct[i.val + 16]'(by omega)

/-- The three outcomes of an Oracle call (R87). -/
inductive Verdict where
  | block0Fails
  | block1Fails
  | accepted (p0 p1 : Block)
deriving DecidableEq, Repr

/-- The Oracle's decision on a ciphertext and a key (R83): block 1 is decrypted only when block 0 passes (R84), and both
with the same key. -/
def oracleVerdict (ct : Bytes 32) (key : Block) : Verdict :=
  let p0 := aes128Dec (block0 ct) key
  if blockOk p0 then
    let p1 := aes128Dec (block1 ct) key
    if blockOk p1 then .accepted p0 p1 else .block1Fails
  else .block0Fails

/-- `ACC` (R87). -/
def Verdict.acc : Verdict → Bool
  | .block0Fails => false
  | .block1Fails => false
  | .accepted _ _ => true

/-- `B1DEC` (R87). -/
def Verdict.b1dec : Verdict → Bool
  | .block0Fails => false
  | .block1Fails => true
  | .accepted _ _ => true

/-- How many times the call ran `AES128_DEC` (R84, R87). -/
def Verdict.decrypts : Verdict → BitVec 64
  | .block0Fails => 1
  | .block1Fails => 2
  | .accepted _ _ => 2

/-- `PT` after the call (R87): the two plaintext blocks, or 32 bytes of `⊥` after a rejection (R85). -/
def Verdict.plaintext : Verdict → Vector (Data 8) 32
  | .block0Fails => botBytes 32
  | .block1Fails => botBytes 32
  | .accepted p0 p1 => knownBytes (p0 ++ p1)

/-- The verdict of an Oracle call in `s`, on `CT` and `KEY`. -/
def State.verdict (s : State) : Verdict := oracleVerdict s.ctBytes s.keyBytes

/-- An operand of the call holds `⊥` (R30(b)): a byte of `KEY` or any byte of `CT[0..32)`, of block 1 too when block 0 fails
(R83 "reads `CT[0..32)` and `KEY[0..16)`", R222). -/
def State.oracleReadsBot (s : State) : Bool := !(knownRange s.key 0 16 && knownRange s.ct 0 32)

/-- `ORACLE` (R83): counts the call and its decryptions, writes `ACC`, `B1DEC` and `PT`, and nothing else (R86). When an
operand holds `⊥`, the verdict is that of some value of the byte and `PT` is `⊥` (R30(b)). -/
def State.oracle (s : State) : State :=
  { s with
    steps := s.steps + 1
    decs := s.decs + s.verdict.decrypts
    flags := s.flags.setVerdict s.verdict.acc s.verdict.b1dec
    pt := if s.oracleReadsBot then botBytes 32 else s.verdict.plaintext
    draws := if s.oracleReadsBot then s.draws + 1 else s.draws }

/-- `TEST` (R88): in IDLE, with two ciphertext blocks declared, one Oracle call; `STATE` stays IDLE. -/
def execTest (s : State) : Answer :=
  .next (if s.state = .idle then
      (if nBlk ≤ s.ctblks.toNat then s.oracle else s.raiseInvalidInputLength)
    else s.dropCommand)

end Sys2Proof.Machine
end

