-- ==== Sys2Proof/Machine/Countdown.lean ====
section
/-! DEFINITION. The Countdown Enumerator: `INIT_CD` and `CD_STEP` (41_countdown.md R100 to R105). -/

namespace Sys2Proof.Machine

open Sys2Proof

/-- The bits in a byte array's elements. -/
def valuesOf (v : Vector (Data 8) n) : Bytes n := Vector.ofFn fun i => v[i].value

/-- `MKPREFIX(L)` (R100): `IV[0..L)`, then 0xFF. -/
def mkPrefix (iv : Bytes 16) (len : Nat) : Bytes 16 := Vector.ofFn fun i => if i.val < len then iv[i] else fill

/-- The eight bytes `IV[8..16)`, with `missing` in place of those at index `len` and above (R101, R102). -/
def ivSuffix (iv : Bytes 16) (len : Nat) (missing : Byte) : Bytes 8 :=
  Vector.ofFn fun j => if 8 + j.val < len then iv[8 + j.val]'(by omega) else missing

/-- `CEILING(L)` (R101). -/
def ceilingVal (iv : Bytes 16) (len : Nat) : BitVec 64 := unbe64 (ivSuffix iv len fill)

/-- `FLOORVAL(L)` (R102). -/
def floorVal (iv : Bytes 16) (len : Nat) : BitVec 64 := unbe64 (ivSuffix iv len floorFill)

/-- The effect of a legal `INIT_CD` whose inputs pass (R103). If an `IV` byte below `IVLEN` holds `⊥`, every data register
written becomes `⊥` (R30(b)). -/
def State.initCountdown (s : State) : State :=
  let known := knownRange s.iv 0 s.ivlen.toNat
  let iv := valuesOf s.iv
  { s.startSearch .countdown with
    prefixReg := bytesOrBot known (mkPrefix iv s.ivlen.toNat)
    cnt := wordOrBot known (ceilingVal iv s.ivlen.toNat)
    floor := wordOrBot known (floorVal iv s.ivlen.toNat) }

/-- `INIT_CD` (R103): dropped outside IDLE; InvalidInputLength if `IVLEN > 16` or `CTBLKS < 2` (R191). -/
def execInitCd (s : State) : Answer :=
  .next (if s.state = .idle then
      (if s.inputsOk ivMax then s.initCountdown else s.raiseInvalidInputLength)
    else s.dropCommand)

/-- `KEYCD(P, c)` (R104): `P[0..8)`, then `be64(c)`. -/
def keyCd (p : Bytes 16) (c : BitVec 64) : Block :=
  Vector.ofFn fun i => if h : i.val < cdPrefix then p[i] else (be64 c)[i.val - 8]'(by have := i.isLt; simp [cdPrefix] at h; omega)

/-- `s` with the countdown candidate in `KEY` (R105, first line). -/
def State.cdCandidate (s : State) : State := { s with key := knownBytes (keyCd s.prefixBytes s.cntValue) }

/-- What `CD_STEP` does to `CNT` and `STATE` after the Oracle call (R105): FOUND, or the last candidate rejected
(`CNT = FLOOR` before the decrement: EXHAUSTED, C8, D13), or on to the next candidate. -/
def State.cdAdvance (s : State) (c f : BitVec 64) : State :=
  if s.flags.acc then { s with state := .found }
  else if c = f then { s with cnt := Data.known (c - 1), state := .exhausted }
  else { s with cnt := Data.known (c - 1) }

/-- An operand of `CD_STEP` holds `⊥` (R30(b), R222): `PREFIX[0..8)`, `CNT`, `FLOOR` (R105) or what the Oracle reads. -/
def State.cdReadsBot (s : State) : Bool :=
  !(knownRange s.prefixReg 0 cdPrefix && s.cnt.specified && s.floor.specified) || s.cdCandidate.oracleReadsBot

/-- One countdown step (R105). If an operand holds `⊥`, the data registers it writes (`KEY`, `CNT`, `PT`) become
`⊥`, and the verdict and the next `STATE` are those of some value of the byte (R30(b)). -/
def State.countdownStep (s : State) : State :=
  let t := s.cdCandidate.oracle.cdAdvance s.cntValue s.floorValue
  if s.cdReadsBot then { t with key := botBytes 16, cnt := Data.bot 64, pt := botBytes 32, draws := s.draws + 1 } else t

/-- `CD_STEP` (R105). -/
def execCdStep (s : State) : Answer := .next s.countdownStep

end Sys2Proof.Machine
end

