-- ==== Sys2Proof/Machine/Lfsr.lean ====
section
/-! DEFINITION. The LFSR Enumerator: `INIT_LF` and `LF_STEP` (42_lfsr.md R120 to R126). -/

namespace Sys2Proof.Machine

open Sys2Proof

/-- `FB(s)` (R120), as the source writes it: the taps are bits 0, 2, 19 and 21 (R6 `TAPS`). -/
def lfsrFeedback (s : BitVec 40) : Bool :=
  !((!((!(s.getLsbD 0 ^^ s.getLsbD 2)) ^^ s.getLsbD 19)) ^^ s.getLsbD 21)

/-- `NEXT(s)` (R121): shift right by one, the feedback bit enters at bit 39. -/
def lfsrNext (s : BitVec 40) : BitVec 40 := (s >>> 1) ||| ((BitVec.ofBool (lfsrFeedback s)).setWidth 40 <<< 39)

/-- `PREV(t)` (R126(a)), the inverse of `NEXT`. No operation of the block uses it. -/
def lfsrPrev (t : BitVec 40) : BitVec 40 :=
  (t <<< 1) ||| (BitVec.ofBool (true ^^ t.getLsbD 39 ^^ t.getLsbD 1 ^^ t.getLsbD 18 ^^ t.getLsbD 20)).setWidth 40

/-- The effect of a legal `INIT_LF` whose inputs pass (R122). If an `IV` byte below `IVLEN` holds `⊥`, every data register
written becomes `⊥` (R30(b)). -/
def State.initLfsr (s : State) : State :=
  let known := knownRange s.iv 0 s.ivlen.toNat
  { s.startSearch .lfsr with
    prefixReg := bytesOrBot known (mkPrefix (valuesOf s.iv) s.ivlen.toNat)
    lfsr := wordOrBot known seed }

/-- `INIT_LF` (R122): dropped outside IDLE; InvalidInputLength if `IVLEN > 11` or `CTBLKS < 2` (R191, D15). -/
def execInitLf (s : State) : Answer :=
  .next (if s.state = .idle then
      (if s.inputsOk lfPrefix then s.initLfsr else s.raiseInvalidInputLength)
    else s.dropCommand)

/-- `KEYLF(P, s)` (R123): `P[0..11)`, then `be40(s)`. -/
def keyLf (p : Bytes 16) (r : BitVec 40) : Block :=
  Vector.ofFn fun i => if h : i.val < lfPrefix then p[i] else (be40 r)[i.val - 11]'(by have := i.isLt; simp [lfPrefix] at h; omega)

/-- `s` with the register advanced and the candidate it gives in `KEY` (R124, first two lines: advance, then test, D14). -/
def State.lfCandidate (s : State) : State :=
  { s with lfsr := Data.known (lfsrNext s.lfsrValue), key := knownBytes (keyLf s.prefixBytes (lfsrNext s.lfsrValue)) }

/-- An operand of `LF_STEP` holds `⊥` (R30(b), R222): `PREFIX[0..11)`, `LFSR` (R124) or what the Oracle reads. -/
def State.lfReadsBot (s : State) : Bool :=
  !(knownRange s.prefixReg 0 lfPrefix && s.lfsr.specified) || s.lfCandidate.oracleReadsBot

/-- What `LF_STEP` does to `STATE` after the Oracle call (R124): FOUND on acceptance; there is no exhaustion test (R125). -/
def State.lfAdvance (s : State) : State := if s.flags.acc then { s with state := .found } else s

/-- One LFSR step (R124). If an operand holds `⊥`, the data registers it writes (`LFSR`, `KEY`, `PT`) become `⊥`, and
the verdict and the next `STATE` are those of some value of the byte (R30(b)). -/
def State.lfsrStep (s : State) : State :=
  let t := s.lfCandidate.oracle.lfAdvance
  if s.lfReadsBot then { t with key := botBytes 16, lfsr := Data.bot 40, pt := botBytes 32, draws := s.draws + 1 } else t

/-- `LF_STEP` (R124). -/
def execLfStep (s : State) : Answer := .next s.lfsrStep

end Sys2Proof.Machine
end

