-- ==== Sys2Proof/Machine/Control.lean ====
section
/-! DEFINITION. The control commands `NOP`, `STEP`, `RUN`, `STOP`, `CLEAR` (43_control_and_host.md R143 to R147). -/

namespace Sys2Proof.Machine

open Sys2Proof

/-- `NOP` (R143): nothing, in every `STATE`, with no flag. -/
def execNop (s : State) : Answer := .next s

/-- The engine step that `MODE` selects (R64), as `STEP` performs it. -/
def State.selectedStep (s : State) : Answer :=
  match s.mode with
  | .countdown => .next s.countdownStep
  | .lfsr => .next s.lfsrStep
  | .none => .refused .modeSelectsNothing

/-- `STEP` (R144): exactly one engine step, in PAUSED only. -/
def execStep (s : State) : Answer := if s.state = .paused then s.selectedStep else .next s.dropCommand

/-- `RUN` (R145): PAUSED becomes RUN; in RUN nothing; elsewhere illegal. It performs no step itself. -/
def execRun (s : State) : Answer :=
  .next (if s.state = .paused then { s with state := .run } else if s.state = .run then s else s.dropCommand)

/-- `STOP` (R146): RUN becomes PAUSED; in every other state nothing, and no flag. -/
def execStop (s : State) : Answer := .next (if s.state = .run then { s with state := .paused } else s)

/-- `CLEAR` (R147), legal in every `STATE`. -/
def execClear (s : State) : Answer := .next s.clearControl

end Sys2Proof.Machine
end

