-- ==== Sys2Proof/Machine/HostPort.lean ====
section
/-! DEFINITION. Host access `HRD`, `HWR` and command dispatch `EXEC` (43_control_and_host.md R140 to R142). -/

namespace Sys2Proof.Machine

open Sys2Proof

/-- `HRD a` (R140). -/
def execHrd (a : Addr) (s : State) : Answer := .next (s.afterRead a)

/-- A command executes within the write transaction that delivered it (R142, R50(d)). -/
def execCommand (c : Command) (s : State) : Answer :=
  match c with
  | .nop => execNop s
  | .initCd => execInitCd s
  | .initLf => execInitLf s
  | .step => execStep s
  | .run => execRun s
  | .stop => execStop s
  | .test => execTest s
  | .clear => execClear s

/-- `EXEC(v)` (R142): an undefined command byte is dropped with `FLAGS.ILLCMD` (R66, R194). -/
def execCommandByte (v : Byte) (s : State) : Answer :=
  match decodeCommand v with
  | .ok c => execCommand c s
  | .error _ => .next s.dropCommand

/-- `HWR a, v` (R141): at 0x00 (`CMD`) a command; elsewhere a data write. -/
def execHwr (a : Addr) (v : Byte) (s : State) : Answer :=
  if locOf a = .cmd then execCommandByte v s else .next (s.dataWrite (locOf a) v)

end Sys2Proof.Machine
end

