-- ==== Sys2Proof/Machine/Dispatch.lean ====
section
/-! DEFINITION. The meaning of every operation: one arm per constructor of `Instr`. -/

namespace Sys2Proof.Machine

open Sys2Proof

def exec (i : Instr) (s : State) : Host.Outcome State Fault Refusal :=
  match i with
  | .hrd a => Sys2Proof.Machine.execHrd a s
  | .hwr a v => Sys2Proof.Machine.execHwr a v s
  | .nop => Sys2Proof.Machine.execNop s
  | .initCd => Sys2Proof.Machine.execInitCd s
  | .initLf => Sys2Proof.Machine.execInitLf s
  | .step => Sys2Proof.Machine.execStep s
  | .run => Sys2Proof.Machine.execRun s
  | .stop => Sys2Proof.Machine.execStop s
  | .test => Sys2Proof.Machine.execTest s
  | .clear => Sys2Proof.Machine.execClear s
  | .cdStep => Sys2Proof.Machine.execCdStep s
  | .lfStep => Sys2Proof.Machine.execLfStep s

end Sys2Proof.Machine
end

