-- ==== Sys2Proof/Machine/Fetch.lean ====
section
/-! DEFINITION. Which event comes next and which operation it is (20_memory.md R50, 30_encoding.md R64,
43_control_and_host.md R148, 70_reset_and_hazards.md R220). The block has no program counter and fetches nothing (R29): the
next operation is a host transaction that arrives at the port, or the engine step that `MODE` selects. -/

namespace Sys2Proof.Machine

open Sys2Proof

/-- What the next event comes to. -/
inductive Selection where
  /-- The operation `i` is performed in `s`. -/
  | perform (i : Instr) (s : State)
  /-- The event leads to `s` with no operation. -/
  | settle (s : State)
  /-- Nothing can be selected. -/
  | refuse (r : Refusal)
deriving DecidableEq, Repr

/-- The engine's turn (R148): in RUN the step that `MODE` selects (R64), in every other `STATE` nothing. -/
def State.engineSelects (s : State) : Selection :=
  if s.state = .run then
    match decodeEs s.mode.code with
    | .ok i => .perform i s
    | .error _ => .refuse .modeSelectsNothing
  else .settle s

/-- The next event: the first of the round, or the turn of the engine that ends it. A round is finite, so in RUN another engine
step eventually happens (R148, fairness). -/
def State.nextEvent (s : State) : Event :=
  match s.schedule with
  | [] => .engineTurn
  | e :: _ => e

/-- The next event taken off: the rest of the round, or, at its end, the next round of the world (R148). -/
def State.advance (s : State) : State :=
  match s.schedule with
  | [] => { s with schedule := Config.eventRound s.rounds, rounds := s.rounds + 1 }
  | _ :: rest => { s with schedule := rest }

/-- What the next event comes to, on the state with it taken off. -/
def State.select (s : State) : Selection :=
  match s.nextEvent with
  | .transaction w => .perform (decodeHt w) s.advance
  | .engineTurn => s.advance.engineSelects
  | .rst => .settle s.advance.applyReset

/-- `s` with the operation of an opcode-table word as its next event: an `HT` word as a transaction, a command byte as the
transaction that writes it to `CMD` (R62), an engine step as the engine's turn in RUN with that `MODE` (R60(c), R64). -/
def State.placeWord (s : State) (nbits w : Nat) : State :=
  match formatOfBits nbits with
  | .ht => { s with schedule := .transaction (BitVec.ofNat 17 w) :: s.schedule }
  | .cb => { s with schedule := .transaction (writeWord 0x00 (BitVec.ofNat 8 w)) :: s.schedule }
  | .es => { s with schedule := .engineTurn :: s.schedule, state := .run, mode := modeOfCode (BitVec.ofNat 2 w) }

end Sys2Proof.Machine
end

