-- ==== Sys2Proof/Machine/Step.lean ====
section
/-! DEFINITION. One step of the machine: one event of the total order of 20_memory.md R50. -/

namespace Sys2Proof.Machine

open Sys2Proof

/-- One step: the next event, performed. -/
def step (s : State) : Host.Outcome State Fault Refusal :=
  match s.select with
  | .perform i t => exec i t
  | .settle t => .next t
  | .refuse r => .refused r

/-- `s` with an opcode-table word placed where `step` takes its next operation from. -/
def State.withFetchWord (s : State) (nbits w : Nat) : State := s.placeWord nbits w

end Sys2Proof.Machine
end

