-- ==== Sys2Proof/Machine/Listing.lean ====
section
/-! DEFINITION. Host programs as lists of events: the line syntax and the pseudo-instructions of 30_encoding.md R68, R69.
`WAIT`, the host's polling loop, stands as the polls it comes to. -/

namespace Sys2Proof.Machine

open Sys2Proof

/-- `WR addr, byte` (R68). -/
def wr (a : Addr) (v : Byte) : List Event := [.transaction (writeWord a v)]

/-- `RD addr` (R68). -/
def rd (a : Addr) : List Event := [.transaction (readWord a)]

/-- `CMD op` (R69). -/
def cmd (c : Command) : List Event := [.transaction (commandWord c)]

/-- `WRN reg, b0 b1 …` (R69). -/
def wrn (a : Addr) : List Byte → List Event
  | [] => []
  | v :: vs => wr a v ++ wrn (a + 1) vs

/-- `RDN reg, n` (R69). -/
def rdn (a : Addr) : Nat → List Event
  | 0 => []
  | n + 1 => rd a ++ rdn (a + 1) n

/-- `LOADIV b0 … b(L-1)` (R69). -/
def loadIv (bs : List Byte) : List Event := wr 0x05 (BitVec.ofNat 8 bs.length) ++ wrn 0x10 bs

/-- `LOADCT b0 … b31` (R69). -/
def loadCt (bs : List Byte) : List Event := wr 0x06 0x02 ++ wrn 0x20 bs

/-- `START_CD` (R69). -/
def startCd : List Event := cmd .initCd ++ cmd .run

/-- `START_LF` (R69). -/
def startLf : List Event := cmd .initLf ++ cmd .run

/-- `WAIT` (R69), as the `n` reads of `STATE` it comes to; how many they are depends on what the host reads. -/
def wait (n : Nat) : List Event := (List.replicate n (rd 0x01)).flatten

/-- `ENGINE n` of 95_test_vectors.md part 3: `n` turns of the engine. -/
def engine (n : Nat) : List Event := List.replicate n .engineTurn

end Sys2Proof.Machine
end

