-- ==== Sys2Proof/Machine/Status.lean ====
section
/-! DEFINITION. What is a view of the state and not state: the `done` output (60_exceptions.md R196) and the source's
SearchResult (10_state.md R34). -/

namespace Sys2Proof.Machine

open Sys2Proof

/-- FOUND, EXHAUSTED and ERROR are the terminal states (R22, glossary). -/
def ControlState.terminal : ControlState → Bool
  | .idle => false
  | .paused => false
  | .run => false
  | .found => true
  | .exhausted => true
  | .error => true

/-- The level output `done` (R196). -/
def State.done (s : State) : Bool := s.state.terminal

/-- The source's SearchResult (R34). -/
inductive SearchResult where
  | found (key : Vector (Data 8) 16) (plaintext : Vector (Data 8) 32)
  | exhausted
  | preconditionFailure
  | noneYet
deriving DecidableEq, Repr

/-- The SearchResult as a view of `STATE`, `KEY` and `PT` (R34). -/
def State.searchResult (s : State) : SearchResult :=
  match s.state with
  | .found => .found s.key s.pt
  | .exhausted => .exhausted
  | .error => .preconditionFailure
  | .idle => .noneYet
  | .paused => .noneYet
  | .run => .noneYet

end Sys2Proof.Machine
end

