-- ==== Sys2Proof/Safety.lean ====
section
/-! DEFINITION. The terms the statements use: the spec's tables written out on their own (legality R142, transitions R149,
Oracle outcomes R87), what "specified" means for the bytes an operation reads (R30), and the invariants of R31. -/

namespace Sys2Proof.Safety

open Sys2Proof Sys2Proof.Machine

/-! ### Tables of the spec -/

/-- An entry of the legality table of R142. -/
inductive Legality where
  | executes
  | noOp
  | illegal
deriving DecidableEq, Repr

/-- The legality table of R142, row by row. -/
def legality : Command → ControlState → Legality
  | .nop, _ => .noOp
  | .initCd, .idle => .executes
  | .initCd, _ => .illegal
  | .initLf, .idle => .executes
  | .initLf, _ => .illegal
  | .step, .paused => .executes
  | .step, _ => .illegal
  | .run, .paused => .executes
  | .run, .run => .noOp
  | .run, _ => .illegal
  | .stop, .run => .executes
  | .stop, _ => .noOp
  | .test, .idle => .executes
  | .test, _ => .illegal
  | .clear, _ => .executes

/-- The opcode of a command (the `Match` column of R63). -/
def opcode : Command → Byte
  | .nop => 0x00
  | .initCd => 0x01
  | .initLf => 0x02
  | .step => 0x03
  | .run => 0x04
  | .stop => 0x05
  | .test => 0x06
  | .clear => 0x07

/-- The rows of R149 for the operation `i` in mode `m`: from `a`, `STATE` may go to `b`. An engine step has rows from RUN, and
from PAUSED as the step inside a `STEP` command. A pair not listed leaves `STATE` unchanged. -/
def mayMove (i : Instr) (m : Mode) (a b : ControlState) : Bool :=
  match i, a with
  | .clear, _ => b == .idle
  | .initCd, .idle => b == .paused || b == .error
  | .initLf, .idle => b == .paused || b == .error
  | .test, .idle => b == .idle || b == .error
  | .run, .paused => b == .run
  | .stop, .run => b == .paused
  | .step, .paused => b == .paused || b == .found || (b == .exhausted && m == .countdown)
  | .cdStep, .paused => b == .paused || b == .found || b == .exhausted
  | .cdStep, .run => b == .run || b == .found || b == .exhausted
  | .lfStep, .paused => b == .paused || b == .found
  | .lfStep, .run => b == .run || b == .found
  | _, a => b == a

/-- One row of the table of R87. -/
structure OracleRow where
  acc : Bool
  b1dec : Bool
  decs : BitVec 64
  pt : Vector (Data 8) 32

/-- The row of R87 for the plaintext blocks `p0` and `p1`; `p1` counts only when `p0` passes. -/
def oracleRow (p0 p1 : Block) : OracleRow :=
  if blockOk p0 = false then { acc := false, b1dec := false, decs := 1, pt := Vector.replicate 32 (Data.bot 8) }
  else if blockOk p1 = false then { acc := false, b1dec := true, decs := 2, pt := Vector.replicate 32 (Data.bot 8) }
  else { acc := true, b1dec := true, decs := 2, pt := (p0 ++ p1).map Data.known }

/-! ### Specified bytes -/

/-- The elements `lo` to `hi - 1` hold specified values (R30). -/
def SpecifiedOn (v : Vector (Data 8) n) (lo hi : Nat) : Prop := ∀ i : Fin n, lo ≤ i.val → i.val < hi → v[i].specified = true

/-- Ciphertext block 0 and block 1 as `CT` holds them (R13). -/
def cipher0 (s : State) : Block := Vector.ofFn fun i => (s.ct[i.val]'(by omega)).value
def cipher1 (s : State) : Block := Vector.ofFn fun i => (s.ct[i.val + 16]'(by omega)).value

/-- The key as `KEY` holds it (R15). -/
def keyValue (s : State) : Block := Vector.ofFn fun i => s.key[i].value

/-- What the Oracle finds for the key `k` and the ciphertext in `CT` (R83). -/
def row (s : State) (k : Block) : OracleRow := oracleRow (aes128Dec (cipher0 s) k) (aes128Dec (cipher1 s) k)

/-- The countdown candidate of `s`: `PREFIX[0..8)`, then the counter most significant byte first (R104). -/
def cdKey (s : State) : Block :=
  Vector.ofFn fun i =>
    if i.val < 8 then s.prefixReg[i].value else s.cnt.value.extractLsb' (56 - 8 * (i.val - 8)) 8

/-- The LFSR candidate for the register value `r`: `PREFIX[0..11)`, then the register most significant byte first (R123). -/
def lfKey (s : State) (r : BitVec 40) : Block :=
  Vector.ofFn fun i => if i.val < 11 then s.prefixReg[i].value else r.extractLsb' (32 - 8 * (i.val - 11)) 8

/-- Every operand of `TEST` holds specified bytes: `KEY` and the 32 bytes of `CT` (R88, R222). -/
def TestSpecified (s : State) : Prop := SpecifiedOn s.key 0 16 ∧ SpecifiedOn s.ct 0 32

/-- Every operand of `CD_STEP` holds specified bytes: `PREFIX[0..8)`, `CNT`, `FLOOR`, `CT` (R105, R222). -/
def CdSpecified (s : State) : Prop :=
  SpecifiedOn s.prefixReg 0 8 ∧ s.cnt.specified = true ∧ s.floor.specified = true ∧ SpecifiedOn s.ct 0 32

/-- Every operand of `LF_STEP` holds specified bytes: `PREFIX[0..11)`, `LFSR`, `CT` (R124, R222). -/
def LfSpecified (s : State) : Prop :=
  SpecifiedOn s.prefixReg 0 11 ∧ s.lfsr.specified = true ∧ SpecifiedOn s.ct 0 32

/-- `w` holds what `v` specifies and specifies everything. -/
def Fills (v w : Vector (Data 8) n) : Prop :=
  ∀ i : Fin n, w[i].specified = true ∧ (v[i].specified = true → w[i] = v[i])

/-- `e` holds what `d` specifies and is specified. -/
def FillsWord (d e : Data w) : Prop := e.specified = true ∧ (d.specified = true → e = d)

/-- `t` is `s` with some value in the place of every `⊥` that an engine step or `TEST` can read (R30(b)). -/
def FilledIn (s t : State) : Prop :=
  ∃ ct key pfx cnt flr lfsr,
    Fills s.ct ct ∧ Fills s.key key ∧ Fills s.prefixReg pfx ∧ FillsWord s.cnt cnt ∧ FillsWord s.floor flr ∧
      FillsWord s.lfsr lfsr ∧
      t = { s with ct := ct, key := key, prefixReg := pfx, cnt := cnt, floor := flr, lfsr := lfsr }

/-- The control registers agree (R30(d): they never hold `⊥`). -/
def SameControl (s t : State) : Prop :=
  s.state = t.state ∧ s.cause = t.cause ∧ s.mode = t.mode ∧ s.flags = t.flags ∧ s.steps = t.steps ∧ s.decs = t.decs ∧
    s.ivlen = t.ivlen ∧ s.ctblks = t.ctblks

/-! ### Window addresses -/

/-- The addresses of the W-IDLE registers `IVLEN`, `CTBLKS`, `IV`, `CT`, `KEY` (R42, R49). -/
def WritableAddr (a : Addr) : Prop := a.toNat = 0x05 ∨ a.toNat = 0x06 ∨ (0x10 ≤ a.toNat ∧ a.toNat < 0x50)

/-- The reserved addresses (R42, R48). -/
def ReservedAddr (a : Addr) : Prop :=
  (0x07 ≤ a.toNat ∧ a.toNat ≤ 0x0F) ∨ (0x95 ≤ a.toNat ∧ a.toNat ≤ 0x97) ∨ 0xA8 ≤ a.toNat

/-! ### Events -/

/-- A search exists: `STATE` is PAUSED, RUN, FOUND or EXHAUSTED. -/
def searchExists (c : ControlState) : Bool := c == .paused || c == .run || c == .found || c == .exhausted

/-- The next event is a reset. -/
def ResetNext (s : State) : Prop := ∃ rest, s.schedule = .rst :: rest

/-- The next event is a host write of `CLEAR` to `CMD`. -/
def ClearNext (s : State) : Prop := ∃ w rest, s.schedule = .transaction w :: rest ∧ decodeHt w = .hwr 0x00 0x07

/-- The next `n` events are turns of the engine, whatever follows them: events of the round, the turn that ends it, and events of
the rounds after it. -/
def EngineTurnsNext : Nat → State → Prop
  | 0, _ => True
  | n + 1, s => s.nextEvent = .engineTurn ∧ EngineTurnsNext n s.advance

/-- A turn of the engine, or a transaction that is no write of `STOP` or `CLEAR` to `CMD`. -/
def KeepsSearching : Event → Prop
  | .engineTurn => True
  | .transaction w => decodeHt w ≠ .hwr 0x00 0x05 ∧ decodeHt w ≠ .hwr 0x00 0x07
  | .rst => False

/-- The Oracle rejects the key `k` for the ciphertext in `CT`. -/
def Rejects (s : State) (k : Block) : Prop := (row s k).acc = false

/-! ### The invariants of R31 -/

/-- A `⊥` is the one datum that stands for it. -/
def CanonicalData (d : Data w) : Prop := d.specified = false → d = Data.bot w

/-- Every `⊥` of the state is the one datum that stands for it, so that states that agree in every register are equal. -/
def CanonicalBots (s : State) : Prop :=
  (∀ i : Fin 16, CanonicalData s.iv[i]) ∧ (∀ i : Fin 32, CanonicalData s.ct[i]) ∧ (∀ i : Fin 16, CanonicalData s.key[i]) ∧
    (∀ i : Fin 32, CanonicalData s.pt[i]) ∧ (∀ i : Fin 16, CanonicalData s.prefixReg[i]) ∧ CanonicalData s.cnt ∧
    CanonicalData s.floor ∧ CanonicalData s.lfsr

/-- The control registers belong together: `CAUSE ≠ 0` exactly in ERROR and then 0x01 (R23), `MODE ≠ 0` exactly while a
search exists (R24), `ACC = 1` implies `B1DEC = 1` (R25), EXHAUSTED only in countdown mode (R34, R125). -/
def ControlInv (s : State) : Prop :=
  (s.cause ≠ 0 ↔ s.state = .error) ∧ (s.cause = 0 ∨ s.cause = 1) ∧ (s.mode ≠ .none ↔ searchExists s.state = true) ∧
    (s.flags.acc = true → s.flags.b1dec = true) ∧ (s.state = .exhausted → s.mode = .countdown)

/-- R31(e): in FOUND, `ACC = 1`; and while `ACC = 1`, every specified byte of `PT` is printable. -/
def ResultInv (s : State) : Prop :=
  (s.state = .found → s.flags.acc = true) ∧
    (s.flags.acc = true → ∀ i : Fin 32, s.pt[i].specified = true → 0x20 ≤ s.pt[i].value.toNat ∧ s.pt[i].value.toNat ≤ 0x7E)

/-- R31(b) and (c), for registers that hold specified values: the counter between the floor and the ceiling
`unbe64(PREFIX[8..16))` while candidates remain; its known high bytes are the prefix's; the accepted suffix in `KEY` in
FOUND; one below the floor in EXHAUSTED. The clause on the floor's known bytes is what keeps the clause on the counter's. -/
def CountdownInv (s : State) : Prop :=
  s.mode = .countdown →
    (s.floor.specified = true → SpecifiedOn s.prefixReg 8 16 → ∀ j : Fin 8, 8 + j.val < s.ivlen.toNat →
      s.floor.value.extractLsb' (56 - 8 * j.val) 8 = (s.prefixReg[8 + j.val]'(by omega)).value) ∧
    (s.cnt.specified = true → s.floor.specified = true →
      ((s.state = .paused ∨ s.state = .run ∨ s.state = .found) → s.floor.value ≤ s.cnt.value) ∧
      ((s.state = .paused ∨ s.state = .run) → SpecifiedOn s.prefixReg 8 16 →
        s.cnt.value ≤ unbe64 (Vector.ofFn fun j => (s.prefixReg[8 + j.val]'(by omega)).value) ∧
        ∀ j : Fin 8, 8 + j.val < s.ivlen.toNat →
          s.cnt.value.extractLsb' (56 - 8 * j.val) 8 = (s.prefixReg[8 + j.val]'(by omega)).value) ∧
      (s.state = .exhausted → s.cnt.value = s.floor.value - 1)) ∧
    (s.cnt.specified = true → s.state = .found →
      ∀ j : Fin 8, s.key[8 + j.val]'(by omega) = Data.known (s.cnt.value.extractLsb' (56 - 8 * j.val) 8))

/-- R31(d), for a register that holds a specified value: it never holds the lock-up value, and after the first step `KEY` is
the candidate of the register. -/
def LfsrInv (s : State) : Prop :=
  s.mode = .lfsr → s.lfsr.specified = true →
    s.lfsr.value ≠ 0xFFFFFFFFFF#40 ∧
    (s.steps ≠ 0 →
      (∀ i : Fin 11, s.key[i.val]'(by omega) = s.prefixReg[i.val]'(by omega)) ∧
      (∀ j : Fin 5, s.key[11 + j.val]'(by omega) = Data.known (s.lfsr.value.extractLsb' (32 - 8 * j.val) 8)))

/-- The invariant of the block. -/
structure Inv (s : State) : Prop where
  canonical : CanonicalBots s
  control : ControlInv s
  result : ResultInv s
  countdown : CountdownInv s
  lfsr : LfsrInv s

end Sys2Proof.Safety
end

