-- ==== Sys2Proof/Certificates/Slice0/Obligations.lean ====
section
/-! DEFINITION. The statements about the block, for the provers. Each follows rules of spec/; where a clause rests on a choice
of the model, its docstring names the assumption-log entry. -/

open Sys2Proof Sys2Proof.Machine Sys2Proof.Safety

/-! ### Encoding -/

/-- In each format, decoding the encoding of an operation of that format gives the operation back, for every operand
(R61, R62, R63, R64). -/
def Obligations.EveryFormatDecodesItsEncoding : Prop :=
  ∀ (f : Format) (i : Instr), i.wellFormedIn f = true → decodeWord f (encode i) = .ok i

/-- Every one of the 2^17 `HT` words is a read or a write; encoding what was decoded gives a write back unchanged and a read with
its `WDATA` cleared, since the port ignores it (R61, R66; assumption log 10). -/
def Obligations.EncodingADecodedHostWordClearsOnlyReadData : Prop :=
  ∀ w : HostWord, encode (decodeHt w) = if w.toNat < 2 ^ 16 then w.toNat - w.toNat % 2 ^ 8 else w.toNat

/-- Words written out from R61 and R63 decode to the operations they stand for, as the opcode table numbers them; a command
byte 0x08 and the modes 0 and 3 decode to nothing (R64, R66). -/
def Obligations.WrittenOutWordsDecode : Prop :=
  decodeTableWord 17 0x1050B = some (.hwr 0x05 0x0B) ∧ decodeTableWord 17 0x00100 = some (.hrd 0x01) ∧
    decodeTableWord 17 0x001FF = some (.hrd 0x01) ∧ decodeTableWord 17 0x10001 = some (.hwr 0x00 0x01) ∧
    decodeTableWord 8 0x00 = some .nop ∧ decodeTableWord 8 0x01 = some .initCd ∧ decodeTableWord 8 0x02 = some .initLf ∧
    decodeTableWord 8 0x03 = some .step ∧ decodeTableWord 8 0x04 = some .run ∧ decodeTableWord 8 0x05 = some .stop ∧
    decodeTableWord 8 0x06 = some .test ∧ decodeTableWord 8 0x07 = some .clear ∧ decodeTableWord 8 0x08 = none ∧
    decodeTableWord 2 0b01 = some .cdStep ∧ decodeTableWord 2 0b10 = some .lfStep ∧
    decodeTableWord 2 0b00 = none ∧ decodeTableWord 2 0b11 = none

/-! ### A step runs the decoded operation -/

/-- A host transaction at the head of the schedule is decoded and performed, on the state with the event taken off (R50,
R61). The schedule is the model's (assumption log 3). -/
def Obligations.StepPerformsTheHostTransaction : Prop :=
  ∀ (s : State) (w : HostWord) (rest : List Event), s.schedule = .transaction w :: rest →
    step s = exec (decodeHt w) { s with schedule := rest }

/-- The engine's turn, scheduled or at the end of a round, where the next round of the world then begins: in RUN the step that
`MODE` selects is performed (R64, R148); in RUN with no mode the model refuses (R64); in every other `STATE` nothing happens. The
schedule and the rounds are the model's (assumption log 3). -/
def Obligations.StepPerformsTheSelectedEngineStep : Prop :=
  ∀ (s t : State),
    ((∃ rest, s.schedule = .engineTurn :: rest ∧ t = { s with schedule := rest }) ∨
      (s.schedule = [] ∧ t = { s with schedule := Config.eventRound s.rounds, rounds := s.rounds + 1 })) →
      (s.state = .run → s.mode = .countdown → step s = exec .cdStep t) ∧
      (s.state = .run → s.mode = .lfsr → step s = exec .lfStep t) ∧
      (s.state = .run → s.mode = .none → step s = .refused .modeSelectsNothing) ∧
      (s.state ≠ .run → step s = .next t)

/-- A reset event gives the reset state in every register of the block, whatever the block was doing (R220). That the
events to come, the number of the round, the read-data signal and the free-value index stay is the model's (assumption log 3). -/
def Obligations.StepTakesTheReset : Prop :=
  ∀ (s : State) (rest : List Event), s.schedule = .rst :: rest →
    step s = .next { State.reset with schedule := rest, rounds := s.rounds, rdata := s.rdata, draws := s.draws }

/-! ### Host reads -/

/-- A read of a specified byte of `IV`, `CT`, `KEY`, `PT` or `PREFIX` returns that byte and changes no register (R42, R47,
R140). -/
def Obligations.HostReadReturnsArrayBytes : Prop :=
  ∀ s : State,
    (∀ i : Fin 16, s.iv[i].specified = true →
      exec (.hrd (BitVec.ofNat 8 (0x10 + i.val))) s = .next { s with rdata := s.iv[i].value }) ∧
    (∀ i : Fin 32, s.ct[i].specified = true →
      exec (.hrd (BitVec.ofNat 8 (0x20 + i.val))) s = .next { s with rdata := s.ct[i].value }) ∧
    (∀ i : Fin 16, s.key[i].specified = true →
      exec (.hrd (BitVec.ofNat 8 (0x40 + i.val))) s = .next { s with rdata := s.key[i].value }) ∧
    (∀ i : Fin 32, s.pt[i].specified = true →
      exec (.hrd (BitVec.ofNat 8 (0x50 + i.val))) s = .next { s with rdata := s.pt[i].value }) ∧
    (∀ i : Fin 16, s.prefixReg[i].specified = true →
      exec (.hrd (BitVec.ofNat 8 (0x70 + i.val))) s = .next { s with rdata := s.prefixReg[i].value })

/-- A read of a byte of a multi-byte integer register returns it most significant byte at the lowest address (R42, R43(d)),
and changes no register (R47). -/
def Obligations.HostReadReturnsIntegersBigEndian : Prop :=
  ∀ (s : State) (j : Fin 8),
    (s.cnt.specified = true → exec (.hrd (BitVec.ofNat 8 (0x80 + j.val))) s =
      .next { s with rdata := s.cnt.value.extractLsb' (56 - 8 * j.val) 8 }) ∧
    (s.floor.specified = true → exec (.hrd (BitVec.ofNat 8 (0x88 + j.val))) s =
      .next { s with rdata := s.floor.value.extractLsb' (56 - 8 * j.val) 8 }) ∧
    (s.lfsr.specified = true → j.val < 5 → exec (.hrd (BitVec.ofNat 8 (0x90 + j.val))) s =
      .next { s with rdata := s.lfsr.value.extractLsb' (32 - 8 * j.val) 8 }) ∧
    exec (.hrd (BitVec.ofNat 8 (0x98 + j.val))) s = .next { s with rdata := s.steps.extractLsb' (56 - 8 * j.val) 8 } ∧
    exec (.hrd (BitVec.ofNat 8 (0xA0 + j.val))) s = .next { s with rdata := s.decs.extractLsb' (56 - 8 * j.val) 8 }

/-- A read of a control register returns its code with the upper bits 0 (R22 to R25, R42), and changes no register (R47). -/
def Obligations.HostReadReturnsControlRegisters : Prop :=
  ∀ s : State,
    exec (.hrd 0x01) s = .next { s with rdata := match s.state with
      | .idle => 0
      | .paused => 1
      | .run => 2
      | .found => 3
      | .exhausted => 4
      | .error => 5 } ∧
    exec (.hrd 0x02) s = .next { s with rdata := s.cause } ∧
    exec (.hrd 0x03) s = .next { s with rdata := match s.mode with
      | .none => 0
      | .countdown => 1
      | .lfsr => 2 } ∧
    exec (.hrd 0x04) s = .next { s with
      rdata := (if s.flags.acc then 1 else 0) + (if s.flags.b1dec then 2 else 0) + (if s.flags.illcmd then 4 else 0) +
        (if s.flags.illwr then 8 else 0) } ∧
    exec (.hrd 0x05) s = .next { s with rdata := s.ivlen } ∧
    exec (.hrd 0x06) s = .next { s with rdata := s.ctblks }

/-- A read of `CMD` or of a reserved address returns 0x00 (R28, R48) and changes no register (R47). -/
def Obligations.HostReadOfCmdAndReservedIsZero : Prop :=
  ∀ (s : State) (a : Addr), a = 0x00 ∨ ReservedAddr a → exec (.hrd a) s = .next { s with rdata := 0x00 }

/-- Every read, at every address and in every state, completes and changes no register of the block (R45, R47): only the
read-data signal and the free-value index, which are the model's (assumption log 2 and 5), may differ after it. -/
def Obligations.HostReadChangesNoRegister : Prop :=
  ∀ (s : State) (a : Addr), ∃ (b : Byte) (n : Nat), exec (.hrd a) s = .next { s with rdata := b, draws := n }

/-- A read of a byte that holds `⊥` returns a free value, a fresh one for each read (R30(a)); that the value is
`Config.freeByte` of the free-value index and the address is the model's (assumption log 2). -/
def Obligations.HostReadOfUnspecifiedByteIsFree : Prop :=
  ∀ (s : State) (a : Addr),
    ((∃ i : Fin 16, a.toNat = 0x10 + i.val ∧ s.iv[i].specified = false) ∨
      (∃ i : Fin 32, a.toNat = 0x20 + i.val ∧ s.ct[i].specified = false) ∨
      (∃ i : Fin 16, a.toNat = 0x40 + i.val ∧ s.key[i].specified = false) ∨
      (∃ i : Fin 32, a.toNat = 0x50 + i.val ∧ s.pt[i].specified = false) ∨
      (∃ i : Fin 16, a.toNat = 0x70 + i.val ∧ s.prefixReg[i].specified = false) ∨
      (0x80 ≤ a.toNat ∧ a.toNat < 0x88 ∧ s.cnt.specified = false) ∨
      (0x88 ≤ a.toNat ∧ a.toNat < 0x90 ∧ s.floor.specified = false) ∨
      (0x90 ≤ a.toNat ∧ a.toNat < 0x95 ∧ s.lfsr.specified = false)) →
    exec (.hrd a) s = .next { s with rdata := Config.freeByte s.draws a, draws := s.draws + 1 }

/-! ### Host writes -/

/-- In IDLE a data write to `IVLEN`, `CTBLKS`, `IV`, `CT` or `KEY` stores the byte, whatever it is, and changes nothing else
(R42, R49, R141). -/
def Obligations.HostWriteStoresInIdle : Prop :=
  ∀ (s : State) (v : Byte), s.state = .idle →
    exec (.hwr 0x05 v) s = .next { s with ivlen := v } ∧
    exec (.hwr 0x06 v) s = .next { s with ctblks := v } ∧
    (∀ i : Fin 16, exec (.hwr (BitVec.ofNat 8 (0x10 + i.val)) v) s =
      .next { s with iv := s.iv.set i.val { value := v, specified := true } }) ∧
    (∀ i : Fin 32, exec (.hwr (BitVec.ofNat 8 (0x20 + i.val)) v) s =
      .next { s with ct := s.ct.set i.val { value := v, specified := true } }) ∧
    (∀ i : Fin 16, exec (.hwr (BitVec.ofNat 8 (0x40 + i.val)) v) s =
      .next { s with key := s.key.set i.val { value := v, specified := true } })

/-- Outside IDLE a data write to a W-IDLE register is dropped: `FLAGS.ILLWR` is set and nothing else changes; a write to a
read-only or reserved address is ignored without any flag (R49, R195). -/
def Obligations.HostWriteIsDroppedOutsideIdle : Prop :=
  ∀ (s : State) (a : Addr) (v : Byte),
    (s.state ≠ .idle → WritableAddr a → exec (.hwr a v) s = .next { s with flags := { s.flags with illwr := true } }) ∧
    (a ≠ 0x00 → ¬ WritableAddr a → exec (.hwr a v) s = .next s)

/-- A reserved address reads 0x00, and a write to a reserved address or to a register the host may not write changes nothing
and sets no flag, in every `STATE` (R48). -/
def Obligations.ReservedAndReadOnlyAddressesAreInert : Prop :=
  ∀ (s : State) (a : Addr) (v : Byte),
    (ReservedAddr a → exec (.hrd a) s = .next { s with rdata := 0x00 } ∧ exec (.hwr a v) s = .next s) ∧
    (((0x01 ≤ a.toNat ∧ a.toNat ≤ 0x04) ∨ (0x50 ≤ a.toNat ∧ a.toNat ≤ 0x94) ∨ (0x98 ≤ a.toNat ∧ a.toNat ≤ 0xA7)) →
      exec (.hwr a v) s = .next s)

/-- The window is a memory where the host may write it: in IDLE, after a write to a W-IDLE address a read of that address
returns the byte written, and every other address reads as before (R42, R47, R49). For another address that holds `⊥`, that it
reads the same free value as before is the model's, whose free values depend on the occasion and the address alone
(assumption log 2): R30(a) does not promise it. -/
def Obligations.HostReadAfterWrite : Prop :=
  ∀ (s : State) (a : Addr) (v : Byte), s.state = .idle → WritableAddr a →
    ∃ t, exec (.hwr a v) s = .next t ∧ exec (.hrd a) t = .next { t with rdata := v } ∧
      ∀ b : Addr, b ≠ a → ∃ r n, exec (.hrd b) t = .next { t with rdata := r, draws := n } ∧
        exec (.hrd b) s = .next { s with rdata := r, draws := n }

/-! ### Commands -/

/-- A command byte written to `CMD` has the outcome the legality table gives it (R142): illegal, it is dropped and only
`FLAGS.ILLCMD` is set; a no-op, nothing changes; otherwise the command is performed within the write. A byte 0x08 to 0xFF is
illegal in every `STATE` (R66, R194). -/
def Obligations.CommandWritesFollowTheLegalityTable : Prop :=
  ∀ s : State,
    (∀ c : Command,
      (legality c s.state = .illegal → exec (.hwr 0x00 (opcode c)) s = .next { s with flags := { s.flags with illcmd := true } }) ∧
      (legality c s.state = .noOp → exec (.hwr 0x00 (opcode c)) s = .next s) ∧
      (legality c s.state = .executes → exec (.hwr 0x00 (opcode c)) s = exec c.toInstr s)) ∧
    (∀ v : Byte, 0x08 ≤ v.toNat → exec (.hwr 0x00 v) s = .next { s with flags := { s.flags with illcmd := true } })

/-- `NOP`, command byte 0x00, completes in every state and changes nothing, no flag included (R143). -/
def Obligations.NopChangesNothing : Prop := decodeCb 0x00 = .ok .nop ∧ ∀ s : State, exec .nop s = .next s

/-- `RUN`, command byte 0x04, turns PAUSED into RUN and performs no step; in RUN it does nothing; elsewhere it is dropped
(R145). -/
def Obligations.RunCommandStartsTheEngine : Prop :=
  decodeCb 0x04 = .ok .run ∧ ∀ s : State,
    (s.state = .paused → exec .run s = .next { s with state := .run }) ∧
    (s.state = .run → exec .run s = .next s) ∧
    (s.state ≠ .paused → s.state ≠ .run → exec .run s = .next { s with flags := { s.flags with illcmd := true } })

/-- `STOP`, command byte 0x05, turns RUN into PAUSED; in every other state it does nothing and sets no flag (R146). -/
def Obligations.StopCommandPausesTheEngine : Prop :=
  decodeCb 0x05 = .ok .stop ∧ ∀ s : State,
    (s.state = .run → exec .stop s = .next { s with state := .paused }) ∧ (s.state ≠ .run → exec .stop s = .next s)

/-- `CLEAR`, command byte 0x07, in every state, gives IDLE with `CAUSE`, `MODE`, `FLAGS`, `STEPS`, `DECS` zero and leaves every
other register as it is (R147, R221). -/
def Obligations.ClearCommandReturnsToIdle : Prop :=
  decodeCb 0x07 = .ok .clear ∧ ∀ s : State, exec .clear s = .next { s with
    state := .idle, cause := 0, mode := .none, flags := { acc := false, b1dec := false, illcmd := false, illwr := false },
    steps := 0, decs := 0 }

/-- InvalidInputLength, exactly when R191 says it: in IDLE, `INIT_CD` with `IVLEN > 16` or `CTBLKS < 2`, `INIT_LF` with
`IVLEN > 11` or `CTBLKS < 2`, `TEST` with `CTBLKS < 2`. It sets `STATE` to ERROR and `CAUSE` to 0x01 and writes no other
register, and `done` becomes 1 (R198). Otherwise the command has its own outcome, `STATE` PAUSED (R103, R122) or IDLE (R88),
with `CAUSE` as it was; that it goes on there also over unwritten bytes of `IV`, `KEY` or `CT`, where R30(b) advises to refuse,
is the model's choice (assumption log 2). -/
def Obligations.InvalidInputLengthIsTaken : Prop :=
  ∀ s : State, s.state = .idle →
    (16 < s.ivlen.toNat ∨ s.ctblks.toNat < 2 → exec .initCd s = .next { s with state := .error, cause := 1 }) ∧
    (11 < s.ivlen.toNat ∨ s.ctblks.toNat < 2 → exec .initLf s = .next { s with state := .error, cause := 1 }) ∧
    (s.ctblks.toNat < 2 → exec .test s = .next { s with state := .error, cause := 1 }) ∧
    ({ s with state := .error, cause := 1 } : State).done = true ∧
    (¬ (16 < s.ivlen.toNat ∨ s.ctblks.toNat < 2) → ∃ t, exec .initCd s = .next t ∧ t.state = .paused ∧ t.cause = s.cause) ∧
    (¬ (11 < s.ivlen.toNat ∨ s.ctblks.toNat < 2) → ∃ t, exec .initLf s = .next t ∧ t.state = .paused ∧ t.cause = s.cause) ∧
    (¬ s.ctblks.toNat < 2 → ∃ t, exec .test s = .next t ∧ t.state = .idle ∧ t.cause = s.cause)

/-- `INIT_CD`: dropped with `ILLCMD` outside IDLE; InvalidInputLength if `IVLEN > 16` or `CTBLKS < 2`; otherwise, with
`IV[0..IVLEN)` written: `PREFIX` is the IV filled with 0xFF, `CNT` the ceiling, `FLOOR` the floor (IV bytes 8 to 15, most
significant first, missing ones 0xFF and 0x00), `MODE` 1, the counters and verdict flags clear, `STATE` PAUSED, and nothing
else changes (R100, R101, R102, R103). -/
def Obligations.InitCdSetsUpTheCountdown : Prop :=
  ∀ s : State,
    (s.state ≠ .idle → exec .initCd s = .next { s with flags := { s.flags with illcmd := true } }) ∧
    (s.state = .idle → 16 < s.ivlen.toNat ∨ s.ctblks.toNat < 2 → exec .initCd s = .next { s with state := .error, cause := 1 }) ∧
    ∀ c f : BitVec 64,
      s.state = .idle → s.ivlen.toNat ≤ 16 → 2 ≤ s.ctblks.toNat → SpecifiedOn s.iv 0 s.ivlen.toNat →
      (∀ j : Fin 8, c.extractLsb' (56 - 8 * j.val) 8 =
        if 8 + j.val < s.ivlen.toNat then (s.iv[8 + j.val]'(by omega)).value else 0xFF) →
      (∀ j : Fin 8, f.extractLsb' (56 - 8 * j.val) 8 =
        if 8 + j.val < s.ivlen.toNat then (s.iv[8 + j.val]'(by omega)).value else 0x00) →
      exec .initCd s = .next { s with
        prefixReg := Vector.ofFn fun i : Fin 16 =>
          if i.val < s.ivlen.toNat then s.iv[i] else { value := 0xFF, specified := true }
        cnt := { value := c, specified := true }
        floor := { value := f, specified := true }
        mode := .countdown, steps := 0, decs := 0, flags := { s.flags with acc := false, b1dec := false }, state := .paused }

/-- `INIT_LF`: dropped with `ILLCMD` outside IDLE; InvalidInputLength if `IVLEN > 11` or `CTBLKS < 2`; otherwise, with
`IV[0..IVLEN)` written: `PREFIX` is the IV filled with 0xFF, `LFSR` is 1, `MODE` 2, the counters and verdict flags clear,
`STATE` PAUSED, and nothing else changes (R100, R122). -/
def Obligations.InitLfSetsUpTheLfsr : Prop :=
  ∀ s : State,
    (s.state ≠ .idle → exec .initLf s = .next { s with flags := { s.flags with illcmd := true } }) ∧
    (s.state = .idle → 11 < s.ivlen.toNat ∨ s.ctblks.toNat < 2 → exec .initLf s = .next { s with state := .error, cause := 1 }) ∧
    (s.state = .idle → s.ivlen.toNat ≤ 11 → 2 ≤ s.ctblks.toNat → SpecifiedOn s.iv 0 s.ivlen.toNat →
      exec .initLf s = .next { s with
        prefixReg := Vector.ofFn fun i : Fin 16 =>
          if i.val < s.ivlen.toNat then s.iv[i] else { value := 0xFF, specified := true }
        lfsr := { value := 1, specified := true }
        mode := .lfsr, steps := 0, decs := 0, flags := { s.flags with acc := false, b1dec := false }, state := .paused })

/-- `INIT_CD` and `INIT_LF` when a byte of `IV[0..IVLEN)` was never written still complete, with the control registers as
ever; every data register they write becomes `⊥` (R30(b), R222). That they go on and do not refuse is the model's choice
(assumption log 2). -/
def Obligations.InitOverUnspecifiedIvGivesUnspecifiedRegisters : Prop :=
  ∀ s : State, s.state = .idle → 2 ≤ s.ctblks.toNat → ¬ SpecifiedOn s.iv 0 s.ivlen.toNat →
    (s.ivlen.toNat ≤ 16 → exec .initCd s = .next { s with
      prefixReg := Vector.replicate 16 (Data.bot 8), cnt := Data.bot 64, floor := Data.bot 64
      mode := .countdown, steps := 0, decs := 0, flags := { s.flags with acc := false, b1dec := false }, state := .paused }) ∧
    (s.ivlen.toNat ≤ 11 → exec .initLf s = .next { s with
      prefixReg := Vector.replicate 16 (Data.bot 8), lfsr := Data.bot 40
      mode := .lfsr, steps := 0, decs := 0, flags := { s.flags with acc := false, b1dec := false }, state := .paused })

/-- The bytes of `IV` at index `IVLEN` and above are read by neither `INIT_CD` nor `INIT_LF` (R11): two states that differ only
there are taken to states that differ only there. -/
def Obligations.InitDoesNotReadBeyondIvlen : Prop :=
  ∀ (s : State) (iv : Vector (Data 8) 16), (∀ i : Fin 16, i.val < s.ivlen.toNat → iv[i] = s.iv[i]) →
    ∀ t, (exec .initCd s = .next t → exec .initCd { s with iv := iv } = .next { t with iv := iv }) ∧
      (exec .initLf s = .next t → exec .initLf { s with iv := iv } = .next { t with iv := iv })

/-- `STEP`, command byte 0x03: in PAUSED exactly the engine step that `MODE` selects, one Oracle call, after which `STATE` is
PAUSED, FOUND or, in countdown mode only, EXHAUSTED; in every other `STATE` it is dropped with `ILLCMD` (R144). That the step
goes on also over operands that hold `⊥`, where R30(b) advises to refuse, is the model's choice (assumption log 2). In PAUSED with
no mode, which the invariant rules out, it is refused: that is R64's advice as the model takes it (assumption log 8), where
the pseudocode of R144 does nothing. -/
def Obligations.StepCommandPerformsTheSelectedStep : Prop :=
  decodeCb 0x03 = .ok .step ∧ ∀ s : State,
    (s.state = .paused → s.mode = .countdown → exec .step s = exec .cdStep s ∧ ∃ t, exec .step s = .next t ∧
      t.steps = s.steps + 1 ∧ (t.state = .paused ∨ t.state = .found ∨ t.state = .exhausted)) ∧
    (s.state = .paused → s.mode = .lfsr → exec .step s = exec .lfStep s ∧ ∃ t, exec .step s = .next t ∧
      t.steps = s.steps + 1 ∧ (t.state = .paused ∨ t.state = .found)) ∧
    (s.state ≠ .paused → exec .step s = .next { s with flags := { s.flags with illcmd := true } }) ∧
    (s.state = .paused → s.mode = .none → exec .step s = .refused .modeSelectsNothing)

/-! ### The Oracle -/

/-- A byte is printable exactly when it is in 0x20 to 0x7E: bit 7 clear, bits 6:5 not both clear, and not 0x7F; 95 of the 256
bytes are (R80). A block passes exactly when all its 16 bytes are printable (R81). -/
def Obligations.PrintableIsTheRange20To7E : Prop :=
  (∀ b : Byte, (printable b = true ↔ 0x20 ≤ b.toNat ∧ b.toNat ≤ 0x7E) ∧
    (printable b = true ↔ b.getLsbD 7 = false ∧ (b.getLsbD 6 = true ∨ b.getLsbD 5 = true) ∧ b ≠ 0x7F)) ∧
  (Finset.univ.filter fun n : Fin 256 => printable (BitVec.ofNat 8 n.val) = true).card = 95 ∧
  ∀ p : Block, blockOk p = true ↔ ∀ i : Fin 16, printable p[i] = true

/-- `TEST`, command byte 0x06: dropped with `ILLCMD` outside IDLE; InvalidInputLength if `CTBLKS < 2`; otherwise, with every
byte of `KEY` and of `CT` specified (R222): one Oracle call on them, with the outcome of R87's table (`ACC`, `B1DEC`, `DECS` and `PT`),
`STEPS` one more, `STATE` still IDLE, and nothing else changed (R83, R86, R87, R88). -/
def Obligations.TestCallsTheOracleOnce : Prop :=
  decodeCb 0x06 = .ok .test ∧ ∀ s : State,
    (s.state ≠ .idle → exec .test s = .next { s with flags := { s.flags with illcmd := true } }) ∧
    (s.state = .idle → s.ctblks.toNat < 2 → exec .test s = .next { s with state := .error, cause := 1 }) ∧
    (s.state = .idle → 2 ≤ s.ctblks.toNat → TestSpecified s →
      exec .test s = .next { s with
        steps := s.steps + 1
        decs := s.decs + (row s (keyValue s)).decs
        flags := { s.flags with acc := (row s (keyValue s)).acc, b1dec := (row s (keyValue s)).b1dec }
        pt := (row s (keyValue s)).pt })

/-- `CD_STEP` when all its operands, `CT` whole among them, are specified (R222): `KEY` becomes `PREFIX[0..8)` and `CNT` big-endian; one Oracle call; if it
accepts, FOUND with `CNT` unchanged; if it rejects with `CNT = FLOOR`, EXHAUSTED; a rejection takes 1 from `CNT` modulo 2^64;
nothing else changes (R104, R105, R83, R87). -/
def Obligations.CdStepTestsOneCandidate : Prop :=
  ∀ s : State, CdSpecified s →
    exec .cdStep s = .next { s with
      key := (cdKey s).map Data.known
      steps := s.steps + 1
      decs := s.decs + (row s (cdKey s)).decs
      flags := { s.flags with acc := (row s (cdKey s)).acc, b1dec := (row s (cdKey s)).b1dec }
      pt := (row s (cdKey s)).pt
      cnt := if (row s (cdKey s)).acc then s.cnt else { value := s.cnt.value - 1, specified := true }
      state := if (row s (cdKey s)).acc then .found
        else if s.cnt.value = s.floor.value then .exhausted else s.state }

/-- `LF_STEP` when all its operands, `CT` whole among them, are specified (R222): `LFSR` advances to its successor; `KEY` becomes `PREFIX[0..11)` and the new
value big-endian; one Oracle call; if it accepts, FOUND; nothing else changes, and there is no exhaustion (R121, R123, R124,
R83, R87, R125). -/
def Obligations.LfStepAdvancesThenTests : Prop :=
  ∀ s : State, LfSpecified s →
    exec .lfStep s = .next { s with
      lfsr := { value := lfsrNext s.lfsr.value, specified := true }
      key := (lfKey s (lfsrNext s.lfsr.value)).map Data.known
      steps := s.steps + 1
      decs := s.decs + (row s (lfKey s (lfsrNext s.lfsr.value))).decs
      flags := { s.flags with
        acc := (row s (lfKey s (lfsrNext s.lfsr.value))).acc, b1dec := (row s (lfKey s (lfsrNext s.lfsr.value))).b1dec }
      pt := (row s (lfKey s (lfsrNext s.lfsr.value))).pt
      state := if (row s (lfKey s (lfsrNext s.lfsr.value))).acc then .found else s.state }

/-- An operation with a `⊥` in an operand, be it one byte of `CT`, still completes: every data register it writes becomes `⊥`,
every register it does not write stays, and the control registers become what the rules give for some value of the missing
bytes (R30(b), R222). That the model goes on and does not refuse, and numbers its free values, is its own (assumption log 2);
which bytes are an operation's operands is read from the rules (assumption log 11). -/
def Obligations.StepsOverUnspecifiedBytes : Prop :=
  ∀ s : State,
    (s.state = .idle → 2 ≤ s.ctblks.toNat → ¬ TestSpecified s → ∃ t u v, exec .test s = .next t ∧ FilledIn s u ∧
      exec .test u = .next v ∧ SameControl t v ∧
      t = { s with flags := t.flags, steps := t.steps, decs := t.decs, pt := Vector.replicate 32 (Data.bot 8), draws := s.draws + 1 }) ∧
    (¬ CdSpecified s → ∃ t u v, exec .cdStep s = .next t ∧ FilledIn s u ∧ exec .cdStep u = .next v ∧ SameControl t v ∧
      t = { s with state := t.state, flags := t.flags, steps := t.steps, decs := t.decs, cnt := Data.bot 64,
                   key := Vector.replicate 16 (Data.bot 8), pt := Vector.replicate 32 (Data.bot 8), draws := s.draws + 1 }) ∧
    (¬ LfSpecified s → ∃ t u v, exec .lfStep s = .next t ∧ FilledIn s u ∧ exec .lfStep u = .next v ∧ SameControl t v ∧
      t = { s with state := t.state, flags := t.flags, steps := t.steps, decs := t.decs, lfsr := Data.bot 40,
                   key := Vector.replicate 16 (Data.bot 8), pt := Vector.replicate 32 (Data.bot 8), draws := s.draws + 1 })

/-- Whatever the next event is, the two counters move only together: unchanged, or both cleared, or one Oracle call with one
decryption and block 1 not decrypted (`B1DEC = 0`), or one Oracle call with two decryptions (`B1DEC = 1`) (R26, R27, R84). -/
def Obligations.CountersShowTheShortCircuit : Prop :=
  ∀ s t : State, step s = .next t →
    (t.steps = s.steps ∧ t.decs = s.decs) ∨ (t.steps = 0 ∧ t.decs = 0) ∨
      (t.steps = s.steps + 1 ∧ t.decs = s.decs + 1 ∧ t.flags.b1dec = false ∧ t.flags.acc = false) ∨
      (t.steps = s.steps + 1 ∧ t.decs = s.decs + 2 ∧ t.flags.b1dec = true)

/-! ### AES-128 -/

/-- The two published examples of R181, both ways. The spec marks the algorithm as general knowledge; that the model runs it is
assumption log 6. -/
def Obligations.AesCheckValues : Prop :=
  let k1 : Block := #v[0x00, 0x01, 0x02, 0x03, 0x04, 0x05, 0x06, 0x07, 0x08, 0x09, 0x0A, 0x0B, 0x0C, 0x0D, 0x0E, 0x0F]
  let p1 : Block := #v[0x00, 0x11, 0x22, 0x33, 0x44, 0x55, 0x66, 0x77, 0x88, 0x99, 0xAA, 0xBB, 0xCC, 0xDD, 0xEE, 0xFF]
  let c1 : Block := #v[0x69, 0xC4, 0xE0, 0xD8, 0x6A, 0x7B, 0x04, 0x30, 0xD8, 0xCD, 0xB7, 0x80, 0x70, 0xB4, 0xC5, 0x5A]
  let k2 : Block := #v[0x2B, 0x7E, 0x15, 0x16, 0x28, 0xAE, 0xD2, 0xA6, 0xAB, 0xF7, 0x15, 0x88, 0x09, 0xCF, 0x4F, 0x3C]
  let p2 : Block := #v[0x32, 0x43, 0xF6, 0xA8, 0x88, 0x5A, 0x30, 0x8D, 0x31, 0x31, 0x98, 0xA2, 0xE0, 0x37, 0x07, 0x34]
  let c2 : Block := #v[0x39, 0x25, 0x84, 0x1D, 0x02, 0xDC, 0x09, 0xFB, 0xDC, 0x11, 0x85, 0x97, 0x19, 0x6A, 0x0B, 0x32]
  aes128Enc p1 k1 = c1 ∧ aes128Dec c1 k1 = p1 ∧ aes128Enc p2 k2 = c2 ∧ aes128Dec c2 k2 = p2

/-- `SBOX` is R173's: the affine image of the multiplicative inverse in GF(2^8) (0 for 0), and `INVSBOX` is its inverse
permutation. The spec marks the table as general knowledge; that the model uses it is assumption log 6. -/
def Obligations.SboxIsTheAffineInverse : Prop :=
  (∀ a b : Byte, (gmul a b = 1 ∨ (a = 0 ∧ b = 0)) →
    sbox a = b ^^^ b.rotateLeft 1 ^^^ b.rotateLeft 2 ^^^ b.rotateLeft 3 ^^^ b.rotateLeft 4 ^^^ 0x63) ∧
  (∀ a : Byte, a ≠ 0 → ∃ b : Byte, gmul a b = 1) ∧
  ∀ a : Byte, invSbox (sbox a) = a ∧ sbox (invSbox a) = a

/-- Under every key, `AES128_DEC` inverts `AES128_ENC` on every block (R170). The spec marks both as general knowledge; that the
model runs them is assumption log 6. -/
def Obligations.AesDecryptionInvertsEncryption : Prop :=
  ∀ p k : Block, aes128Dec (aes128Enc p k) k = p

/-! ### The LFSR -/

/-- The feedback bit is the four-input XNOR of bits 0, 2, 19 and 21 (R120), and the successor is the register shifted right
by one with the feedback bit at bit 39 (R121). -/
def Obligations.LfsrNextShiftsInTheXnor : Prop :=
  ∀ s : BitVec 40,
    (lfsrFeedback s = (true ^^ s.getLsbD 0 ^^ s.getLsbD 2 ^^ s.getLsbD 19 ^^ s.getLsbD 21)) ∧
    (∀ i : Nat, i < 39 → (lfsrNext s).getLsbD i = s.getLsbD (i + 1)) ∧ (lfsrNext s).getLsbD 39 = lfsrFeedback s

/-- `NEXT` is a bijection with inverse `PREV` (R126(a)); its only fixed point is all-ones (R126(b)), so nothing else leads
there; 1 goes to 0 and 0 to 0x8000000000 (R126(c)). -/
def Obligations.LfsrNextIsABijectionFixingOnlyAllOnes : Prop :=
  (∀ s : BitVec 40, lfsrPrev (lfsrNext s) = s ∧ lfsrNext (lfsrPrev s) = s) ∧
    (∀ s : BitVec 40, lfsrNext s = s ↔ s = 0xFFFFFFFFFF#40) ∧
    (∀ s : BitVec 40, lfsrNext s = 0xFFFFFFFFFF#40 → s = 0xFFFFFFFFFF#40) ∧
    lfsrNext 1#40 = 0#40 ∧ lfsrNext 0#40 = 0x8000000000#40

/-- Maximality (R126(d)): from the seed 1 the register first returns to 1 after exactly 2^40 - 1 steps and on the way visits
every 40-bit value but all-ones. -/
def Obligations.LfsrHasMaximalLength : Prop :=
  lfsrNext^[2 ^ 40 - 1] 1#40 = 1#40 ∧ (∀ n : Nat, 0 < n → n < 2 ^ 40 - 1 → lfsrNext^[n] 1#40 ≠ 1#40) ∧
    ∀ v : BitVec 40, v ≠ 0xFFFFFFFFFF#40 → ∃ n : Nat, n < 2 ^ 40 - 1 ∧ lfsrNext^[n] 1#40 = v

/-! ### Searches -/

/-- For every legal IV length the floor is at most the ceiling and they are 2^(8·(16 - max(L, 8))) - 1 apart (R102). -/
def Obligations.FloorAndCeilingSpanTheUnknownBytes : Prop :=
  ∀ (iv : Bytes 16) (len : Nat), len ≤ 16 →
    floorVal iv len ≤ ceilingVal iv len ∧
      (ceilingVal iv len).toNat - (floorVal iv len).toNat = 2 ^ (8 * (16 - max len 8)) - 1

/-- A countdown left to the engine tests `CNT`, `CNT - 1`, … in that order: as long as the candidates are rejected and the
floor is not passed, after `n` steps the counter is `n` lower, `STEPS` is `n` more, `KEY` holds the `n`-th candidate and the
engine is still in RUN (R105, R106). 'Left to the engine' is that the next events are its turns: the model's terms (assumption
log 3). -/
def Obligations.CountdownTestsInDescendingOrder : Prop :=
  ∀ (s : State) (c f : BitVec 64) (n : Nat),
    EngineTurnsNext n s → s.state = .run → s.mode = .countdown → SpecifiedOn s.ct 0 32 → SpecifiedOn s.prefixReg 0 8 →
    s.cnt = { value := c, specified := true } → s.floor = { value := f, specified := true } → f ≤ c →
    n ≤ c.toNat - f.toNat →
    (∀ k : Nat, k < n → Rejects s (cdKey { s with cnt := { value := c - BitVec.ofNat 64 k, specified := true } })) →
    ∃ t, Sys2Proof.core.run n s = .next t ∧ t.state = .run ∧ t.mode = .countdown ∧
      t.schedule = (State.advance^[n] s).schedule ∧ t.rounds = (State.advance^[n] s).rounds ∧
      t.cnt = { value := c - BitVec.ofNat 64 n, specified := true } ∧ t.floor = s.floor ∧ t.prefixReg = s.prefixReg ∧
      t.ct = s.ct ∧ t.steps = s.steps + BitVec.ofNat 64 n ∧
      (∀ m : Nat, n = m + 1 →
        t.key = (cdKey { s with cnt := { value := c - BitVec.ofNat 64 m, specified := true } }).map Data.known)

/-- A countdown whose every candidate from `CNT` down to `FLOOR` is rejected ends in EXHAUSTED after exactly
`CNT - FLOOR + 1` steps, with `CNT` one below the floor (R105, R106). The steps are turns of the engine in the
model's terms (assumption log 3). -/
def Obligations.CountdownEndsExhausted : Prop :=
  ∀ (s : State) (c f : BitVec 64),
    EngineTurnsNext (c.toNat - f.toNat + 1) s → s.state = .run → s.mode = .countdown → SpecifiedOn s.ct 0 32 → SpecifiedOn s.prefixReg 0 8 →
    s.cnt = { value := c, specified := true } → s.floor = { value := f, specified := true } → f ≤ c →
    (∀ k : Nat, k ≤ c.toNat - f.toNat →
      Rejects s (cdKey { s with cnt := { value := c - BitVec.ofNat 64 k, specified := true } })) →
    ∃ t, Sys2Proof.core.run (c.toNat - f.toNat + 1) s = .next t ∧ t.state = .exhausted ∧ t.cause = s.cause ∧
      t.cnt = { value := f - 1, specified := true } ∧
      t.steps = s.steps + BitVec.ofNat 64 (c.toNat - f.toNat + 1) ∧ t.flags.acc = false

/-- A countdown ends FOUND at the first candidate, counting down, that the Oracle accepts, which is the highest accepted
suffix between `FLOOR` and `CNT`: if the candidates before the one with the suffix `CNT - k` are rejected and that one is
accepted, then after `k + 1` steps `STATE` is FOUND, `CNT` is `CNT - k`, `KEY` the accepted key and `PT` its plaintext (R105,
R106, R108, R150). The steps are turns of the engine in the model's terms (assumption log 3). -/
def Obligations.CountdownFindsTheHighestAcceptedSuffix : Prop :=
  ∀ (s : State) (c f : BitVec 64) (k : Nat),
    EngineTurnsNext (k + 1) s → s.state = .run → s.mode = .countdown → SpecifiedOn s.ct 0 32 → SpecifiedOn s.prefixReg 0 8 →
    s.cnt = { value := c, specified := true } → s.floor = { value := f, specified := true } → f ≤ c →
    k ≤ c.toNat - f.toNat →
    (∀ j : Nat, j < k → Rejects s (cdKey { s with cnt := { value := c - BitVec.ofNat 64 j, specified := true } })) →
    ∀ key : Block, key = cdKey { s with cnt := { value := c - BitVec.ofNat 64 k, specified := true } } →
    ¬ Rejects s key →
    ∃ t, Sys2Proof.core.run (k + 1) s = .next t ∧ t.state = .found ∧ t.flags.acc = true ∧
      t.cnt = { value := c - BitVec.ofNat 64 k, specified := true } ∧ t.key = key.map Data.known ∧ t.pt = (row s key).pt ∧
      t.steps = s.steps + BitVec.ofNat 64 (k + 1)

/-- While they are rejected, an LFSR search left to the engine tests the suffixes `NEXT(r)`, `NEXT(NEXT(r))`, … in that order:
after `n` rejections the register is `NEXT^n(r)`, `STEPS` is `n` more and the engine is still in RUN (R124, R125, R127, R226).
The steps are turns of the engine in the model's terms (assumption log 3). -/
def Obligations.LfsrSearchFollowsTheSequence : Prop :=
  ∀ (s : State) (r : BitVec 40) (n : Nat),
    EngineTurnsNext n s → s.state = .run → s.mode = .lfsr → SpecifiedOn s.ct 0 32 → SpecifiedOn s.prefixReg 0 11 →
    s.lfsr = { value := r, specified := true } →
    (∀ k : Nat, k < n → Rejects s (lfKey s (lfsrNext^[k + 1] r))) →
    ∃ t, Sys2Proof.core.run n s = .next t ∧ t.state = .run ∧ t.mode = .lfsr ∧
      t.lfsr = { value := lfsrNext^[n] r, specified := true } ∧ t.steps = s.steps + BitVec.ofNat 64 n ∧
      (0 < n → t.key = (lfKey s (lfsrNext^[n] r)).map Data.known)

/-- An LFSR search ends FOUND at the first candidate of its sequence that the Oracle accepts: if the suffixes `NEXT(r)` to
`NEXT^k(r)` are rejected and `NEXT^(k+1)(r)` is accepted, then after `k + 1` steps `STATE` is FOUND, `LFSR` is `NEXT^(k+1)(r)`,
`KEY` the accepted key, `PT` its plaintext and `STEPS` is `k + 1` more (R124, R127, R150). The steps are turns of
the engine in the model's terms (assumption log 3). -/
def Obligations.LfsrSearchEndsAtTheFirstAcceptedCandidate : Prop :=
  ∀ (s : State) (r : BitVec 40) (k : Nat),
    EngineTurnsNext (k + 1) s → s.state = .run → s.mode = .lfsr → SpecifiedOn s.ct 0 32 → SpecifiedOn s.prefixReg 0 11 →
    s.lfsr = { value := r, specified := true } →
    (∀ j : Nat, j < k → Rejects s (lfKey s (lfsrNext^[j + 1] r))) →
    ∀ key : Block, key = lfKey s (lfsrNext^[k + 1] r) → ¬ Rejects s key →
    ∃ t, Sys2Proof.core.run (k + 1) s = .next t ∧ t.state = .found ∧ t.flags.acc = true ∧
      t.lfsr = { value := lfsrNext^[k + 1] r, specified := true } ∧ t.key = key.map Data.known ∧ t.pt = (row s key).pt ∧
      t.steps = s.steps + BitVec.ofNat 64 (k + 1)

/-- Fairness: the engine is never kept waiting for ever. From every state of the invariant the events left in the round are
performed, one a step, and then the engine has a turn, in which a search that is in RUN makes another step, and the next round of
the world begins; so the same holds again, whatever the host does in the rounds to come (R148, U4). The rounds are the model's
(assumption log 3). The invariant does not ask that operands be written: that the machine goes on also when a command or an
engine step of the round reads a `⊥`, where R30(b) and U3 advise to refuse, is the model's choice (assumption log 2). -/
def Obligations.EveryRoundEndsWithATurnOfTheEngine : Prop :=
  ∀ s : State, Inv s → ∃ t u, Sys2Proof.core.run s.schedule.length s = .next t ∧ t.schedule = [] ∧ t.rounds = s.rounds ∧
    step t = .next u ∧ Inv u ∧ (t.state = .run → u.steps = t.steps + 1) ∧
    u.schedule = Config.eventRound t.rounds ∧ u.rounds = t.rounds + 1

/-- A host that transacts while the engine runs, be it for ever, does not disturb the search: in RUN a transaction other than a
write of `STOP` or `CLEAR` changes no register but the sticky flags `ILLCMD` and `ILLWR` (R107, R142, R195, R229). The read-data
signal, the free-value index and the schedule are the model's (assumption logs 2, 3 and 5). -/
def Obligations.TransactionsInRunLeaveTheSearchAlone : Prop :=
  ∀ (s : State) (w : HostWord) (rest : List Event), s.schedule = .transaction w :: rest → s.state = .run →
    decodeHt w ≠ .hwr 0x00 0x05 → decodeHt w ≠ .hwr 0x00 0x07 →
    ∃ (b : Byte) (n : Nat) (c d : Bool), step s = .next { s with
      schedule := rest, rdata := b, draws := n, flags := { s.flags with illcmd := c, illwr := d } }

/-- How a running search interleaves with the host changes neither its candidates nor its result (R107, R148, U4): in RUN, with
the operands of the step specified, a sequence of engine turns and transactions, none a `STOP` or a `CLEAR`, leads to the state
that its engine turns alone lead to, but for the sticky flags, the read-data signal and the free-value index. The events are the
model's (assumption log 3). -/
def Obligations.InterleavingDoesNotChangeTheSearch : Prop :=
  ∀ (s : State) (es rest : List Event), s.state = .run →
    (s.mode = .countdown ∧ CdSpecified s) ∨ (s.mode = .lfsr ∧ LfSpecified s) → (∀ e ∈ es, KeepsSearching e) →
    ∃ t u, Sys2Proof.core.run es.length { s with schedule := es ++ rest } = .next t ∧
      Sys2Proof.core.run (es.count .engineTurn) { s with schedule := engine (es.count .engineTurn) ++ rest } = .next u ∧
      t = { u with
        flags := { u.flags with illcmd := t.flags.illcmd, illwr := t.flags.illwr }, rdata := t.rdata, draws := t.draws }

/-- A search does not depend on who makes the steps: in PAUSED, one `STEP` gives exactly the state that `RUN`, one engine step
and `STOP` give (R107, R144, R145, R146). The turn of the engine between the two commands is an event of the model's schedule
(assumption log 3). Where an operand of the step holds a `⊥`, that both go on, and that both see the same free value and so give
the same verdict, is the model's, whose free values depend on the occasion and the address alone (assumption log 2): R30(b)
leaves the value open each time. -/
def Obligations.SteppingEqualsRunningAndStopping : Prop :=
  ∀ (s : State) (rest : List Event), s.state = .paused → s.mode ≠ .none →
    Sys2Proof.core.run 1 { s with schedule := cmd .step ++ rest } =
      Sys2Proof.core.run 3 { s with schedule := cmd .run ++ engine 1 ++ cmd .stop ++ rest }

/-! ### The whole machine -/

/-- Reset: the control registers are zero and every byte of every data register is `⊥` (R32, R220). -/
def Obligations.ResetLeavesControlZeroAndDataUnspecified : Prop :=
  let s := State.reset
  s.state = .idle ∧ s.cause = 0 ∧ s.mode = .none ∧
    s.flags = { acc := false, b1dec := false, illcmd := false, illwr := false } ∧ s.ivlen = 0 ∧ s.ctblks = 0 ∧ s.steps = 0 ∧
    s.decs = 0 ∧ (∀ i : Fin 16, s.iv[i].specified = false ∧ s.key[i].specified = false ∧ s.prefixReg[i].specified = false) ∧
    (∀ i : Fin 32, s.ct[i].specified = false ∧ s.pt[i].specified = false) ∧ s.cnt.specified = false ∧
    s.floor.specified = false ∧ s.lfsr.specified = false ∧ s.done = false

/-- The invariant of R31 holds right after reset. -/
def Obligations.InvariantHoldsAtReset : Prop := Inv State.reset

/-- Every step keeps the invariant of R31: the control registers belong together (R23, R24, R25), the counter stays between
floor and ceiling with its known bytes unchanged (R31(b)), FOUND and EXHAUSTED leave what R31(c) says, the LFSR register never
holds the lock-up value and `KEY` follows it (R31(d)), and the plaintext of an accepted key is printable (R31(e)). That a `⊥` is
held in one form only is the model's (assumption log 1). -/
def Obligations.EveryStepKeepsTheInvariant : Prop :=
  ∀ s t : State, Inv s → step s = .next t → Inv t

/-- While a search exists, no event but a reset changes `PREFIX`, `FLOOR`, `CT`, `IV`, `IVLEN` or `CTBLKS` (R31(a), R49, R234). -/
def Obligations.InputsAreFrozenDuringASearch : Prop :=
  ∀ s t : State, searchExists s.state = true → ¬ ResetNext s → step s = .next t →
    t.prefixReg = s.prefixReg ∧ t.floor = s.floor ∧ t.ct = s.ct ∧ t.iv = s.iv ∧ t.ivlen = s.ivlen ∧ t.ctblks = s.ctblks

/-- Every change of `STATE` is a row of the transition table of R149: the operation's, or, for a write to `CMD`, that of the
command written; reads, data writes and undefined command bytes leave `STATE` unchanged. An engine step is performed in RUN, or
in PAUSED inside `STEP`, and its rows are those. Of a whole step: a reset gives IDLE, and a turn of the engine moves `STATE` in
RUN only, by a row of the step `MODE` selects. The turns are the model's schedule (assumption log 3). -/
def Obligations.StateMovesOnlyByTheTransitionTable : Prop :=
  (∀ (i : Instr) (s t : State), (∀ a v, i ≠ .hwr a v) →
    (i = .cdStep ∨ i = .lfStep → s.state = .run ∨ s.state = .paused) →
    exec i s = .next t → mayMove i s.mode s.state t.state = true) ∧
  (∀ (c : Command) (s t : State), exec (.hwr 0x00 (opcode c)) s = .next t → mayMove c.toInstr s.mode s.state t.state = true) ∧
  (∀ (a : Addr) (v : Byte) (s t : State), (a ≠ 0x00 ∨ 0x08 ≤ v.toNat) → exec (.hwr a v) s = .next t → t.state = s.state) ∧
  (∀ s t : State, step s = .next t →
    (ResetNext s → t.state = .idle) ∧
    (s.schedule = [] ∨ (∃ rest, s.schedule = .engineTurn :: rest) →
      (s.state = .run ∧ s.mode = .countdown ∧ mayMove .cdStep s.mode s.state t.state = true) ∨
      (s.state = .run ∧ s.mode = .lfsr ∧ mayMove .lfStep s.mode s.state t.state = true) ∨
      (s.state ≠ .run ∧ t.state = s.state)))

/-- FOUND, EXHAUSTED and ERROR have no way out but `CLEAR` and reset, both to IDLE with `CAUSE` 0 (R149, R199); and while a
terminal state stays, `KEY` and `PT` stay as they are (R150). -/
def Obligations.TerminalStatesEndOnlyByClearOrReset : Prop :=
  ∀ s t : State, (s.state = .found ∨ s.state = .exhausted ∨ s.state = .error) → step s = .next t →
    (t.state = s.state ∧ t.key = s.key ∧ t.pt = s.pt) ∨
      ((ClearNext s ∨ ResetNext s) ∧ t.state = .idle ∧ t.cause = 0)

/-- `ILLCMD` and `ILLWR` are sticky: only `CLEAR` and reset set them to 0 (R25). -/
def Obligations.IllegalFlagsAreSticky : Prop :=
  ∀ s t : State, step s = .next t → ¬ ClearNext s → ¬ ResetNext s →
    (s.flags.illcmd = true → t.flags.illcmd = true) ∧ (s.flags.illwr = true → t.flags.illwr = true)

/-- In every state of the invariant the machine goes on (R190, R193). It refuses only when an engine step is due with `MODE` 0
(R64, assumption log 8), which the invariant rules out. That it goes on also when an operation reads a `⊥`, as `RUN` or `TEST`
over an unwritten `CT` or `KEY`, where R30(b) and U3 advise to refuse, is the model's choice (assumption log 2). The first clause
records that the model has no fault, whose type has no constructor (assumption log 8): the second carries the content. -/
def Obligations.TheMachineAlwaysGoesOn : Prop :=
  (∀ (s : State) (r : Fault), step s ≠ .fault r) ∧ ∀ s : State, Inv s → ∃ t, step s = .next t

/-- `done` is 1 exactly in FOUND, EXHAUSTED and ERROR (R196), and the SearchResult is the view of `STATE`, `KEY` and `PT` that R34
gives. -/
def Obligations.DoneAndSearchResultAreViewsOfState : Prop :=
  ∀ s : State,
    (s.done = true ↔ s.state = .found ∨ s.state = .exhausted ∨ s.state = .error) ∧
    (s.searchResult = .found s.key s.pt ↔ s.state = .found) ∧ (s.searchResult = .exhausted ↔ s.state = .exhausted) ∧
    (s.searchResult = .preconditionFailure ↔ s.state = .error) ∧
    (s.searchResult = .noneYet ↔ s.state = .idle ∨ s.state = .paused ∨ s.state = .run)
end

