-- ==== Sys2Proof/Laws/State.lean ====
section
/-! SUPPORT. One lemma per field per update of the state, each true by unfolding once, so that no later proof unfolds a record
update; and the same for `FLAGS`. -/

namespace Sys2Proof.Machine

open Sys2Proof

@[simp] theorem Flags.setVerdict_acc (f : Flags) (a b : Bool) : (f.setVerdict a b).acc = a := rfl
@[simp] theorem Flags.setVerdict_b1dec (f : Flags) (a b : Bool) : (f.setVerdict a b).b1dec = b := rfl
@[simp] theorem Flags.setVerdict_illcmd (f : Flags) (a b : Bool) : (f.setVerdict a b).illcmd = f.illcmd := rfl
@[simp] theorem Flags.setVerdict_illwr (f : Flags) (a b : Bool) : (f.setVerdict a b).illwr = f.illwr := rfl
@[simp] theorem Flags.clearVerdict_acc (f : Flags) : f.clearVerdict.acc = false := rfl
@[simp] theorem Flags.clearVerdict_b1dec (f : Flags) : f.clearVerdict.b1dec = false := rfl
@[simp] theorem Flags.clearVerdict_illcmd (f : Flags) : f.clearVerdict.illcmd = f.illcmd := rfl
@[simp] theorem Flags.clearVerdict_illwr (f : Flags) : f.clearVerdict.illwr = f.illwr := rfl
@[simp] theorem Flags.setIllCmd_acc (f : Flags) : f.setIllCmd.acc = f.acc := rfl
@[simp] theorem Flags.setIllCmd_b1dec (f : Flags) : f.setIllCmd.b1dec = f.b1dec := rfl
@[simp] theorem Flags.setIllCmd_illcmd (f : Flags) : f.setIllCmd.illcmd = true := rfl
@[simp] theorem Flags.setIllCmd_illwr (f : Flags) : f.setIllCmd.illwr = f.illwr := rfl
@[simp] theorem Flags.setIllWr_acc (f : Flags) : f.setIllWr.acc = f.acc := rfl
@[simp] theorem Flags.setIllWr_b1dec (f : Flags) : f.setIllWr.b1dec = f.b1dec := rfl
@[simp] theorem Flags.setIllWr_illcmd (f : Flags) : f.setIllWr.illcmd = f.illcmd := rfl
@[simp] theorem Flags.setIllWr_illwr (f : Flags) : f.setIllWr.illwr = true := rfl
@[simp] theorem Flags.zero_acc : Flags.zero.acc = false := rfl
@[simp] theorem Flags.zero_b1dec : Flags.zero.b1dec = false := rfl
@[simp] theorem Flags.zero_illcmd : Flags.zero.illcmd = false := rfl
@[simp] theorem Flags.zero_illwr : Flags.zero.illwr = false := rfl

/-! `State.afterRead` -/

@[simp] theorem State.afterRead_iv (s : State) (a : Addr) : (s.afterRead a).iv = s.iv := by unfold State.afterRead; rfl
@[simp] theorem State.afterRead_ivlen (s : State) (a : Addr) : (s.afterRead a).ivlen = s.ivlen := by unfold State.afterRead; rfl
@[simp] theorem State.afterRead_ct (s : State) (a : Addr) : (s.afterRead a).ct = s.ct := by unfold State.afterRead; rfl
@[simp] theorem State.afterRead_ctblks (s : State) (a : Addr) :
    (s.afterRead a).ctblks =
      s.ctblks := by unfold State.afterRead; rfl
@[simp] theorem State.afterRead_key (s : State) (a : Addr) : (s.afterRead a).key = s.key := by unfold State.afterRead; rfl
@[simp] theorem State.afterRead_pt (s : State) (a : Addr) : (s.afterRead a).pt = s.pt := by unfold State.afterRead; rfl
@[simp] theorem State.afterRead_prefixReg (s : State) (a : Addr) :
    (s.afterRead a).prefixReg =
      s.prefixReg := by unfold State.afterRead; rfl
@[simp] theorem State.afterRead_cnt (s : State) (a : Addr) : (s.afterRead a).cnt = s.cnt := by unfold State.afterRead; rfl
@[simp] theorem State.afterRead_floor (s : State) (a : Addr) : (s.afterRead a).floor = s.floor := by unfold State.afterRead; rfl
@[simp] theorem State.afterRead_lfsr (s : State) (a : Addr) : (s.afterRead a).lfsr = s.lfsr := by unfold State.afterRead; rfl
@[simp] theorem State.afterRead_state (s : State) (a : Addr) : (s.afterRead a).state = s.state := by unfold State.afterRead; rfl
@[simp] theorem State.afterRead_cause (s : State) (a : Addr) : (s.afterRead a).cause = s.cause := by unfold State.afterRead; rfl
@[simp] theorem State.afterRead_mode (s : State) (a : Addr) : (s.afterRead a).mode = s.mode := by unfold State.afterRead; rfl
@[simp] theorem State.afterRead_flags (s : State) (a : Addr) : (s.afterRead a).flags = s.flags := by unfold State.afterRead; rfl
@[simp] theorem State.afterRead_steps (s : State) (a : Addr) : (s.afterRead a).steps = s.steps := by unfold State.afterRead; rfl
@[simp] theorem State.afterRead_decs (s : State) (a : Addr) : (s.afterRead a).decs = s.decs := by unfold State.afterRead; rfl
@[simp] theorem State.afterRead_schedule (s : State) (a : Addr) :
    (s.afterRead a).schedule =
      s.schedule := by unfold State.afterRead; rfl
@[simp] theorem State.afterRead_rounds (s : State) (a : Addr) :
    (s.afterRead a).rounds =
      s.rounds := by unfold State.afterRead; rfl
@[simp] theorem State.afterRead_rdata (s : State) (a : Addr) :
    (s.afterRead a).rdata =
      s.hostRead a := by unfold State.afterRead; rfl
@[simp] theorem State.afterRead_draws (s : State) (a : Addr) :
    (s.afterRead a).draws =
      if (s.datumAt (locOf a)).specified then s.draws else s.draws + 1 := by unfold State.afterRead; rfl

/-! `State.dropWrite` -/

@[simp] theorem State.dropWrite_iv (s : State) : s.dropWrite.iv = s.iv := rfl
@[simp] theorem State.dropWrite_ivlen (s : State) : s.dropWrite.ivlen = s.ivlen := rfl
@[simp] theorem State.dropWrite_ct (s : State) : s.dropWrite.ct = s.ct := rfl
@[simp] theorem State.dropWrite_ctblks (s : State) : s.dropWrite.ctblks = s.ctblks := rfl
@[simp] theorem State.dropWrite_key (s : State) : s.dropWrite.key = s.key := rfl
@[simp] theorem State.dropWrite_pt (s : State) : s.dropWrite.pt = s.pt := rfl
@[simp] theorem State.dropWrite_prefixReg (s : State) : s.dropWrite.prefixReg = s.prefixReg := rfl
@[simp] theorem State.dropWrite_cnt (s : State) : s.dropWrite.cnt = s.cnt := rfl
@[simp] theorem State.dropWrite_floor (s : State) : s.dropWrite.floor = s.floor := rfl
@[simp] theorem State.dropWrite_lfsr (s : State) : s.dropWrite.lfsr = s.lfsr := rfl
@[simp] theorem State.dropWrite_state (s : State) : s.dropWrite.state = s.state := rfl
@[simp] theorem State.dropWrite_cause (s : State) : s.dropWrite.cause = s.cause := rfl
@[simp] theorem State.dropWrite_mode (s : State) : s.dropWrite.mode = s.mode := rfl
@[simp] theorem State.dropWrite_flags (s : State) : s.dropWrite.flags = s.flags.setIllWr := rfl
@[simp] theorem State.dropWrite_steps (s : State) : s.dropWrite.steps = s.steps := rfl
@[simp] theorem State.dropWrite_decs (s : State) : s.dropWrite.decs = s.decs := rfl
@[simp] theorem State.dropWrite_schedule (s : State) : s.dropWrite.schedule = s.schedule := rfl
@[simp] theorem State.dropWrite_rounds (s : State) : s.dropWrite.rounds = s.rounds := rfl
@[simp] theorem State.dropWrite_rdata (s : State) : s.dropWrite.rdata = s.rdata := rfl
@[simp] theorem State.dropWrite_draws (s : State) : s.dropWrite.draws = s.draws := rfl

/-! `State.dropCommand` -/

@[simp] theorem State.dropCommand_iv (s : State) : s.dropCommand.iv = s.iv := rfl
@[simp] theorem State.dropCommand_ivlen (s : State) : s.dropCommand.ivlen = s.ivlen := rfl
@[simp] theorem State.dropCommand_ct (s : State) : s.dropCommand.ct = s.ct := rfl
@[simp] theorem State.dropCommand_ctblks (s : State) : s.dropCommand.ctblks = s.ctblks := rfl
@[simp] theorem State.dropCommand_key (s : State) : s.dropCommand.key = s.key := rfl
@[simp] theorem State.dropCommand_pt (s : State) : s.dropCommand.pt = s.pt := rfl
@[simp] theorem State.dropCommand_prefixReg (s : State) : s.dropCommand.prefixReg = s.prefixReg := rfl
@[simp] theorem State.dropCommand_cnt (s : State) : s.dropCommand.cnt = s.cnt := rfl
@[simp] theorem State.dropCommand_floor (s : State) : s.dropCommand.floor = s.floor := rfl
@[simp] theorem State.dropCommand_lfsr (s : State) : s.dropCommand.lfsr = s.lfsr := rfl
@[simp] theorem State.dropCommand_state (s : State) : s.dropCommand.state = s.state := rfl
@[simp] theorem State.dropCommand_cause (s : State) : s.dropCommand.cause = s.cause := rfl
@[simp] theorem State.dropCommand_mode (s : State) : s.dropCommand.mode = s.mode := rfl
@[simp] theorem State.dropCommand_flags (s : State) : s.dropCommand.flags = s.flags.setIllCmd := rfl
@[simp] theorem State.dropCommand_steps (s : State) : s.dropCommand.steps = s.steps := rfl
@[simp] theorem State.dropCommand_decs (s : State) : s.dropCommand.decs = s.decs := rfl
@[simp] theorem State.dropCommand_schedule (s : State) : s.dropCommand.schedule = s.schedule := rfl
@[simp] theorem State.dropCommand_rounds (s : State) : s.dropCommand.rounds = s.rounds := rfl
@[simp] theorem State.dropCommand_rdata (s : State) : s.dropCommand.rdata = s.rdata := rfl
@[simp] theorem State.dropCommand_draws (s : State) : s.dropCommand.draws = s.draws := rfl

/-! `State.raiseInvalidInputLength` -/

@[simp] theorem State.raiseInvalidInputLength_iv (s : State) : s.raiseInvalidInputLength.iv = s.iv := rfl
@[simp] theorem State.raiseInvalidInputLength_ivlen (s : State) : s.raiseInvalidInputLength.ivlen = s.ivlen := rfl
@[simp] theorem State.raiseInvalidInputLength_ct (s : State) : s.raiseInvalidInputLength.ct = s.ct := rfl
@[simp] theorem State.raiseInvalidInputLength_ctblks (s : State) : s.raiseInvalidInputLength.ctblks = s.ctblks := rfl
@[simp] theorem State.raiseInvalidInputLength_key (s : State) : s.raiseInvalidInputLength.key = s.key := rfl
@[simp] theorem State.raiseInvalidInputLength_pt (s : State) : s.raiseInvalidInputLength.pt = s.pt := rfl
@[simp] theorem State.raiseInvalidInputLength_prefixReg (s : State) : s.raiseInvalidInputLength.prefixReg = s.prefixReg := rfl
@[simp] theorem State.raiseInvalidInputLength_cnt (s : State) : s.raiseInvalidInputLength.cnt = s.cnt := rfl
@[simp] theorem State.raiseInvalidInputLength_floor (s : State) : s.raiseInvalidInputLength.floor = s.floor := rfl
@[simp] theorem State.raiseInvalidInputLength_lfsr (s : State) : s.raiseInvalidInputLength.lfsr = s.lfsr := rfl
@[simp] theorem State.raiseInvalidInputLength_state (s : State) : s.raiseInvalidInputLength.state = .error := rfl
@[simp] theorem State.raiseInvalidInputLength_cause (s : State) : s.raiseInvalidInputLength.cause = 0x01 := rfl
@[simp] theorem State.raiseInvalidInputLength_mode (s : State) : s.raiseInvalidInputLength.mode = s.mode := rfl
@[simp] theorem State.raiseInvalidInputLength_flags (s : State) : s.raiseInvalidInputLength.flags = s.flags := rfl
@[simp] theorem State.raiseInvalidInputLength_steps (s : State) : s.raiseInvalidInputLength.steps = s.steps := rfl
@[simp] theorem State.raiseInvalidInputLength_decs (s : State) : s.raiseInvalidInputLength.decs = s.decs := rfl
@[simp] theorem State.raiseInvalidInputLength_schedule (s : State) : s.raiseInvalidInputLength.schedule = s.schedule := rfl
@[simp] theorem State.raiseInvalidInputLength_rounds (s : State) : s.raiseInvalidInputLength.rounds = s.rounds := rfl
@[simp] theorem State.raiseInvalidInputLength_rdata (s : State) : s.raiseInvalidInputLength.rdata = s.rdata := rfl
@[simp] theorem State.raiseInvalidInputLength_draws (s : State) : s.raiseInvalidInputLength.draws = s.draws := rfl

/-! `State.clearControl` -/

@[simp] theorem State.clearControl_iv (s : State) : s.clearControl.iv = s.iv := rfl
@[simp] theorem State.clearControl_ivlen (s : State) : s.clearControl.ivlen = s.ivlen := rfl
@[simp] theorem State.clearControl_ct (s : State) : s.clearControl.ct = s.ct := rfl
@[simp] theorem State.clearControl_ctblks (s : State) : s.clearControl.ctblks = s.ctblks := rfl
@[simp] theorem State.clearControl_key (s : State) : s.clearControl.key = s.key := rfl
@[simp] theorem State.clearControl_pt (s : State) : s.clearControl.pt = s.pt := rfl
@[simp] theorem State.clearControl_prefixReg (s : State) : s.clearControl.prefixReg = s.prefixReg := rfl
@[simp] theorem State.clearControl_cnt (s : State) : s.clearControl.cnt = s.cnt := rfl
@[simp] theorem State.clearControl_floor (s : State) : s.clearControl.floor = s.floor := rfl
@[simp] theorem State.clearControl_lfsr (s : State) : s.clearControl.lfsr = s.lfsr := rfl
@[simp] theorem State.clearControl_state (s : State) : s.clearControl.state = .idle := rfl
@[simp] theorem State.clearControl_cause (s : State) : s.clearControl.cause = 0x00 := rfl
@[simp] theorem State.clearControl_mode (s : State) : s.clearControl.mode = .none := rfl
@[simp] theorem State.clearControl_flags (s : State) : s.clearControl.flags = Flags.zero := rfl
@[simp] theorem State.clearControl_steps (s : State) : s.clearControl.steps = 0 := rfl
@[simp] theorem State.clearControl_decs (s : State) : s.clearControl.decs = 0 := rfl
@[simp] theorem State.clearControl_schedule (s : State) : s.clearControl.schedule = s.schedule := rfl
@[simp] theorem State.clearControl_rounds (s : State) : s.clearControl.rounds = s.rounds := rfl
@[simp] theorem State.clearControl_rdata (s : State) : s.clearControl.rdata = s.rdata := rfl
@[simp] theorem State.clearControl_draws (s : State) : s.clearControl.draws = s.draws := rfl

/-! `State.applyReset` -/

@[simp] theorem State.applyReset_iv (s : State) : s.applyReset.iv = State.reset.iv := rfl
@[simp] theorem State.applyReset_ivlen (s : State) : s.applyReset.ivlen = State.reset.ivlen := rfl
@[simp] theorem State.applyReset_ct (s : State) : s.applyReset.ct = State.reset.ct := rfl
@[simp] theorem State.applyReset_ctblks (s : State) : s.applyReset.ctblks = State.reset.ctblks := rfl
@[simp] theorem State.applyReset_key (s : State) : s.applyReset.key = State.reset.key := rfl
@[simp] theorem State.applyReset_pt (s : State) : s.applyReset.pt = State.reset.pt := rfl
@[simp] theorem State.applyReset_prefixReg (s : State) : s.applyReset.prefixReg = State.reset.prefixReg := rfl
@[simp] theorem State.applyReset_cnt (s : State) : s.applyReset.cnt = State.reset.cnt := rfl
@[simp] theorem State.applyReset_floor (s : State) : s.applyReset.floor = State.reset.floor := rfl
@[simp] theorem State.applyReset_lfsr (s : State) : s.applyReset.lfsr = State.reset.lfsr := rfl
@[simp] theorem State.applyReset_state (s : State) : s.applyReset.state = State.reset.state := rfl
@[simp] theorem State.applyReset_cause (s : State) : s.applyReset.cause = State.reset.cause := rfl
@[simp] theorem State.applyReset_mode (s : State) : s.applyReset.mode = State.reset.mode := rfl
@[simp] theorem State.applyReset_flags (s : State) : s.applyReset.flags = State.reset.flags := rfl
@[simp] theorem State.applyReset_steps (s : State) : s.applyReset.steps = State.reset.steps := rfl
@[simp] theorem State.applyReset_decs (s : State) : s.applyReset.decs = State.reset.decs := rfl
@[simp] theorem State.applyReset_schedule (s : State) : s.applyReset.schedule = s.schedule := rfl
@[simp] theorem State.applyReset_rounds (s : State) : s.applyReset.rounds = s.rounds := rfl
@[simp] theorem State.applyReset_rdata (s : State) : s.applyReset.rdata = s.rdata := rfl
@[simp] theorem State.applyReset_draws (s : State) : s.applyReset.draws = s.draws := rfl

/-! `State.startSearch` -/

@[simp] theorem State.startSearch_iv (s : State) (m : Mode) : (s.startSearch m).iv = s.iv := rfl
@[simp] theorem State.startSearch_ivlen (s : State) (m : Mode) : (s.startSearch m).ivlen = s.ivlen := rfl
@[simp] theorem State.startSearch_ct (s : State) (m : Mode) : (s.startSearch m).ct = s.ct := rfl
@[simp] theorem State.startSearch_ctblks (s : State) (m : Mode) : (s.startSearch m).ctblks = s.ctblks := rfl
@[simp] theorem State.startSearch_key (s : State) (m : Mode) : (s.startSearch m).key = s.key := rfl
@[simp] theorem State.startSearch_pt (s : State) (m : Mode) : (s.startSearch m).pt = s.pt := rfl
@[simp] theorem State.startSearch_prefixReg (s : State) (m : Mode) : (s.startSearch m).prefixReg = s.prefixReg := rfl
@[simp] theorem State.startSearch_cnt (s : State) (m : Mode) : (s.startSearch m).cnt = s.cnt := rfl
@[simp] theorem State.startSearch_floor (s : State) (m : Mode) : (s.startSearch m).floor = s.floor := rfl
@[simp] theorem State.startSearch_lfsr (s : State) (m : Mode) : (s.startSearch m).lfsr = s.lfsr := rfl
@[simp] theorem State.startSearch_state (s : State) (m : Mode) : (s.startSearch m).state = .paused := rfl
@[simp] theorem State.startSearch_cause (s : State) (m : Mode) : (s.startSearch m).cause = s.cause := rfl
@[simp] theorem State.startSearch_mode (s : State) (m : Mode) : (s.startSearch m).mode = m := rfl
@[simp] theorem State.startSearch_flags (s : State) (m : Mode) : (s.startSearch m).flags = s.flags.clearVerdict := rfl
@[simp] theorem State.startSearch_steps (s : State) (m : Mode) : (s.startSearch m).steps = 0 := rfl
@[simp] theorem State.startSearch_decs (s : State) (m : Mode) : (s.startSearch m).decs = 0 := rfl
@[simp] theorem State.startSearch_schedule (s : State) (m : Mode) : (s.startSearch m).schedule = s.schedule := rfl
@[simp] theorem State.startSearch_rounds (s : State) (m : Mode) : (s.startSearch m).rounds = s.rounds := rfl
@[simp] theorem State.startSearch_rdata (s : State) (m : Mode) : (s.startSearch m).rdata = s.rdata := rfl
@[simp] theorem State.startSearch_draws (s : State) (m : Mode) : (s.startSearch m).draws = s.draws := rfl

/-! `State.initCountdown` -/

@[simp] theorem State.initCountdown_iv (s : State) : s.initCountdown.iv = s.iv := by unfold State.initCountdown; rfl
@[simp] theorem State.initCountdown_ivlen (s : State) : s.initCountdown.ivlen = s.ivlen := by unfold State.initCountdown; rfl
@[simp] theorem State.initCountdown_ct (s : State) : s.initCountdown.ct = s.ct := by unfold State.initCountdown; rfl
@[simp] theorem State.initCountdown_ctblks (s : State) : s.initCountdown.ctblks = s.ctblks := by unfold State.initCountdown; rfl
@[simp] theorem State.initCountdown_key (s : State) : s.initCountdown.key = s.key := by unfold State.initCountdown; rfl
@[simp] theorem State.initCountdown_pt (s : State) : s.initCountdown.pt = s.pt := by unfold State.initCountdown; rfl
@[simp] theorem State.initCountdown_prefixReg (s : State) :
    s.initCountdown.prefixReg =
      bytesOrBot (knownRange s.iv 0 s.ivlen.toNat) (mkPrefix (valuesOf s.iv) s.ivlen.toNat) := by unfold State.initCountdown; rfl
@[simp] theorem State.initCountdown_cnt (s : State) :
    s.initCountdown.cnt =
      wordOrBot (knownRange s.iv 0 s.ivlen.toNat) (ceilingVal (valuesOf s.iv) s.ivlen.toNat) := by unfold State.initCountdown; rfl
@[simp] theorem State.initCountdown_floor (s : State) :
    s.initCountdown.floor =
      wordOrBot (knownRange s.iv 0 s.ivlen.toNat) (floorVal (valuesOf s.iv) s.ivlen.toNat) := by unfold State.initCountdown; rfl
@[simp] theorem State.initCountdown_lfsr (s : State) : s.initCountdown.lfsr = s.lfsr := by unfold State.initCountdown; rfl
@[simp] theorem State.initCountdown_state (s : State) : s.initCountdown.state = .paused := by unfold State.initCountdown; rfl
@[simp] theorem State.initCountdown_cause (s : State) : s.initCountdown.cause = s.cause := by unfold State.initCountdown; rfl
@[simp] theorem State.initCountdown_mode (s : State) : s.initCountdown.mode = .countdown := by unfold State.initCountdown; rfl
@[simp] theorem State.initCountdown_flags (s : State) :
    s.initCountdown.flags =
      s.flags.clearVerdict := by unfold State.initCountdown; rfl
@[simp] theorem State.initCountdown_steps (s : State) : s.initCountdown.steps = 0 := by unfold State.initCountdown; rfl
@[simp] theorem State.initCountdown_decs (s : State) : s.initCountdown.decs = 0 := by unfold State.initCountdown; rfl
@[simp] theorem State.initCountdown_schedule (s : State) :
    s.initCountdown.schedule =
      s.schedule := by unfold State.initCountdown; rfl
@[simp] theorem State.initCountdown_rounds (s : State) : s.initCountdown.rounds = s.rounds := by unfold State.initCountdown; rfl
@[simp] theorem State.initCountdown_rdata (s : State) : s.initCountdown.rdata = s.rdata := by unfold State.initCountdown; rfl
@[simp] theorem State.initCountdown_draws (s : State) : s.initCountdown.draws = s.draws := by unfold State.initCountdown; rfl

/-! `State.initLfsr` -/

@[simp] theorem State.initLfsr_iv (s : State) : s.initLfsr.iv = s.iv := by unfold State.initLfsr; rfl
@[simp] theorem State.initLfsr_ivlen (s : State) : s.initLfsr.ivlen = s.ivlen := by unfold State.initLfsr; rfl
@[simp] theorem State.initLfsr_ct (s : State) : s.initLfsr.ct = s.ct := by unfold State.initLfsr; rfl
@[simp] theorem State.initLfsr_ctblks (s : State) : s.initLfsr.ctblks = s.ctblks := by unfold State.initLfsr; rfl
@[simp] theorem State.initLfsr_key (s : State) : s.initLfsr.key = s.key := by unfold State.initLfsr; rfl
@[simp] theorem State.initLfsr_pt (s : State) : s.initLfsr.pt = s.pt := by unfold State.initLfsr; rfl
@[simp] theorem State.initLfsr_prefixReg (s : State) :
    s.initLfsr.prefixReg =
      bytesOrBot (knownRange s.iv 0 s.ivlen.toNat) (mkPrefix (valuesOf s.iv) s.ivlen.toNat) := by unfold State.initLfsr; rfl
@[simp] theorem State.initLfsr_cnt (s : State) : s.initLfsr.cnt = s.cnt := by unfold State.initLfsr; rfl
@[simp] theorem State.initLfsr_floor (s : State) : s.initLfsr.floor = s.floor := by unfold State.initLfsr; rfl
@[simp] theorem State.initLfsr_lfsr (s : State) :
    s.initLfsr.lfsr =
      wordOrBot (knownRange s.iv 0 s.ivlen.toNat) seed := by unfold State.initLfsr; rfl
@[simp] theorem State.initLfsr_state (s : State) : s.initLfsr.state = .paused := by unfold State.initLfsr; rfl
@[simp] theorem State.initLfsr_cause (s : State) : s.initLfsr.cause = s.cause := by unfold State.initLfsr; rfl
@[simp] theorem State.initLfsr_mode (s : State) : s.initLfsr.mode = .lfsr := by unfold State.initLfsr; rfl
@[simp] theorem State.initLfsr_flags (s : State) : s.initLfsr.flags = s.flags.clearVerdict := by unfold State.initLfsr; rfl
@[simp] theorem State.initLfsr_steps (s : State) : s.initLfsr.steps = 0 := by unfold State.initLfsr; rfl
@[simp] theorem State.initLfsr_decs (s : State) : s.initLfsr.decs = 0 := by unfold State.initLfsr; rfl
@[simp] theorem State.initLfsr_schedule (s : State) : s.initLfsr.schedule = s.schedule := by unfold State.initLfsr; rfl
@[simp] theorem State.initLfsr_rounds (s : State) : s.initLfsr.rounds = s.rounds := by unfold State.initLfsr; rfl
@[simp] theorem State.initLfsr_rdata (s : State) : s.initLfsr.rdata = s.rdata := by unfold State.initLfsr; rfl
@[simp] theorem State.initLfsr_draws (s : State) : s.initLfsr.draws = s.draws := by unfold State.initLfsr; rfl

/-! `State.cdCandidate` -/

@[simp] theorem State.cdCandidate_iv (s : State) : s.cdCandidate.iv = s.iv := by unfold State.cdCandidate; rfl
@[simp] theorem State.cdCandidate_ivlen (s : State) : s.cdCandidate.ivlen = s.ivlen := by unfold State.cdCandidate; rfl
@[simp] theorem State.cdCandidate_ct (s : State) : s.cdCandidate.ct = s.ct := by unfold State.cdCandidate; rfl
@[simp] theorem State.cdCandidate_ctblks (s : State) : s.cdCandidate.ctblks = s.ctblks := by unfold State.cdCandidate; rfl
@[simp] theorem State.cdCandidate_key (s : State) :
    s.cdCandidate.key =
      knownBytes (keyCd s.prefixBytes s.cntValue) := by unfold State.cdCandidate; rfl
@[simp] theorem State.cdCandidate_pt (s : State) : s.cdCandidate.pt = s.pt := by unfold State.cdCandidate; rfl
@[simp] theorem State.cdCandidate_prefixReg (s : State) :
    s.cdCandidate.prefixReg =
      s.prefixReg := by unfold State.cdCandidate; rfl
@[simp] theorem State.cdCandidate_cnt (s : State) : s.cdCandidate.cnt = s.cnt := by unfold State.cdCandidate; rfl
@[simp] theorem State.cdCandidate_floor (s : State) : s.cdCandidate.floor = s.floor := by unfold State.cdCandidate; rfl
@[simp] theorem State.cdCandidate_lfsr (s : State) : s.cdCandidate.lfsr = s.lfsr := by unfold State.cdCandidate; rfl
@[simp] theorem State.cdCandidate_state (s : State) : s.cdCandidate.state = s.state := by unfold State.cdCandidate; rfl
@[simp] theorem State.cdCandidate_cause (s : State) : s.cdCandidate.cause = s.cause := by unfold State.cdCandidate; rfl
@[simp] theorem State.cdCandidate_mode (s : State) : s.cdCandidate.mode = s.mode := by unfold State.cdCandidate; rfl
@[simp] theorem State.cdCandidate_flags (s : State) : s.cdCandidate.flags = s.flags := by unfold State.cdCandidate; rfl
@[simp] theorem State.cdCandidate_steps (s : State) : s.cdCandidate.steps = s.steps := by unfold State.cdCandidate; rfl
@[simp] theorem State.cdCandidate_decs (s : State) : s.cdCandidate.decs = s.decs := by unfold State.cdCandidate; rfl
@[simp] theorem State.cdCandidate_schedule (s : State) : s.cdCandidate.schedule = s.schedule := by unfold State.cdCandidate; rfl
@[simp] theorem State.cdCandidate_rounds (s : State) : s.cdCandidate.rounds = s.rounds := by unfold State.cdCandidate; rfl
@[simp] theorem State.cdCandidate_rdata (s : State) : s.cdCandidate.rdata = s.rdata := by unfold State.cdCandidate; rfl
@[simp] theorem State.cdCandidate_draws (s : State) : s.cdCandidate.draws = s.draws := by unfold State.cdCandidate; rfl

/-! `State.lfCandidate` -/

@[simp] theorem State.lfCandidate_iv (s : State) : s.lfCandidate.iv = s.iv := by unfold State.lfCandidate; rfl
@[simp] theorem State.lfCandidate_ivlen (s : State) : s.lfCandidate.ivlen = s.ivlen := by unfold State.lfCandidate; rfl
@[simp] theorem State.lfCandidate_ct (s : State) : s.lfCandidate.ct = s.ct := by unfold State.lfCandidate; rfl
@[simp] theorem State.lfCandidate_ctblks (s : State) : s.lfCandidate.ctblks = s.ctblks := by unfold State.lfCandidate; rfl
@[simp] theorem State.lfCandidate_key (s : State) :
    s.lfCandidate.key =
      knownBytes (keyLf s.prefixBytes (lfsrNext s.lfsrValue)) := by unfold State.lfCandidate; rfl
@[simp] theorem State.lfCandidate_pt (s : State) : s.lfCandidate.pt = s.pt := by unfold State.lfCandidate; rfl
@[simp] theorem State.lfCandidate_prefixReg (s : State) :
    s.lfCandidate.prefixReg =
      s.prefixReg := by unfold State.lfCandidate; rfl
@[simp] theorem State.lfCandidate_cnt (s : State) : s.lfCandidate.cnt = s.cnt := by unfold State.lfCandidate; rfl
@[simp] theorem State.lfCandidate_floor (s : State) : s.lfCandidate.floor = s.floor := by unfold State.lfCandidate; rfl
@[simp] theorem State.lfCandidate_lfsr (s : State) :
    s.lfCandidate.lfsr =
      Data.known (lfsrNext s.lfsrValue) := by unfold State.lfCandidate; rfl
@[simp] theorem State.lfCandidate_state (s : State) : s.lfCandidate.state = s.state := by unfold State.lfCandidate; rfl
@[simp] theorem State.lfCandidate_cause (s : State) : s.lfCandidate.cause = s.cause := by unfold State.lfCandidate; rfl
@[simp] theorem State.lfCandidate_mode (s : State) : s.lfCandidate.mode = s.mode := by unfold State.lfCandidate; rfl
@[simp] theorem State.lfCandidate_flags (s : State) : s.lfCandidate.flags = s.flags := by unfold State.lfCandidate; rfl
@[simp] theorem State.lfCandidate_steps (s : State) : s.lfCandidate.steps = s.steps := by unfold State.lfCandidate; rfl
@[simp] theorem State.lfCandidate_decs (s : State) : s.lfCandidate.decs = s.decs := by unfold State.lfCandidate; rfl
@[simp] theorem State.lfCandidate_schedule (s : State) : s.lfCandidate.schedule = s.schedule := by unfold State.lfCandidate; rfl
@[simp] theorem State.lfCandidate_rounds (s : State) : s.lfCandidate.rounds = s.rounds := by unfold State.lfCandidate; rfl
@[simp] theorem State.lfCandidate_rdata (s : State) : s.lfCandidate.rdata = s.rdata := by unfold State.lfCandidate; rfl
@[simp] theorem State.lfCandidate_draws (s : State) : s.lfCandidate.draws = s.draws := by unfold State.lfCandidate; rfl

/-! `State.oracle` -/

@[simp] theorem State.oracle_iv (s : State) : s.oracle.iv = s.iv := by unfold State.oracle; rfl
@[simp] theorem State.oracle_ivlen (s : State) : s.oracle.ivlen = s.ivlen := by unfold State.oracle; rfl
@[simp] theorem State.oracle_ct (s : State) : s.oracle.ct = s.ct := by unfold State.oracle; rfl
@[simp] theorem State.oracle_ctblks (s : State) : s.oracle.ctblks = s.ctblks := by unfold State.oracle; rfl
@[simp] theorem State.oracle_key (s : State) : s.oracle.key = s.key := by unfold State.oracle; rfl
@[simp] theorem State.oracle_pt (s : State) :
    s.oracle.pt =
      if s.oracleReadsBot then botBytes 32 else s.verdict.plaintext := by unfold State.oracle; rfl
@[simp] theorem State.oracle_prefixReg (s : State) : s.oracle.prefixReg = s.prefixReg := by unfold State.oracle; rfl
@[simp] theorem State.oracle_cnt (s : State) : s.oracle.cnt = s.cnt := by unfold State.oracle; rfl
@[simp] theorem State.oracle_floor (s : State) : s.oracle.floor = s.floor := by unfold State.oracle; rfl
@[simp] theorem State.oracle_lfsr (s : State) : s.oracle.lfsr = s.lfsr := by unfold State.oracle; rfl
@[simp] theorem State.oracle_state (s : State) : s.oracle.state = s.state := by unfold State.oracle; rfl
@[simp] theorem State.oracle_cause (s : State) : s.oracle.cause = s.cause := by unfold State.oracle; rfl
@[simp] theorem State.oracle_mode (s : State) : s.oracle.mode = s.mode := by unfold State.oracle; rfl
@[simp] theorem State.oracle_flags (s : State) :
    s.oracle.flags =
      s.flags.setVerdict s.verdict.acc s.verdict.b1dec := by unfold State.oracle; rfl
@[simp] theorem State.oracle_steps (s : State) : s.oracle.steps = s.steps + 1 := by unfold State.oracle; rfl
@[simp] theorem State.oracle_decs (s : State) : s.oracle.decs = s.decs + s.verdict.decrypts := by unfold State.oracle; rfl
@[simp] theorem State.oracle_schedule (s : State) : s.oracle.schedule = s.schedule := by unfold State.oracle; rfl
@[simp] theorem State.oracle_rounds (s : State) : s.oracle.rounds = s.rounds := by unfold State.oracle; rfl
@[simp] theorem State.oracle_rdata (s : State) : s.oracle.rdata = s.rdata := by unfold State.oracle; rfl
@[simp] theorem State.oracle_draws (s : State) :
    s.oracle.draws =
      if s.oracleReadsBot then s.draws + 1 else s.draws := by unfold State.oracle; rfl

/-! `State.advance` -/

@[simp] theorem State.advance_iv (s : State) : s.advance.iv = s.iv := by unfold State.advance; split <;> rfl
@[simp] theorem State.advance_ivlen (s : State) : s.advance.ivlen = s.ivlen := by unfold State.advance; split <;> rfl
@[simp] theorem State.advance_ct (s : State) : s.advance.ct = s.ct := by unfold State.advance; split <;> rfl
@[simp] theorem State.advance_ctblks (s : State) : s.advance.ctblks = s.ctblks := by unfold State.advance; split <;> rfl
@[simp] theorem State.advance_key (s : State) : s.advance.key = s.key := by unfold State.advance; split <;> rfl
@[simp] theorem State.advance_pt (s : State) : s.advance.pt = s.pt := by unfold State.advance; split <;> rfl
@[simp] theorem State.advance_prefixReg (s : State) : s.advance.prefixReg = s.prefixReg := by unfold State.advance; split <;> rfl
@[simp] theorem State.advance_cnt (s : State) : s.advance.cnt = s.cnt := by unfold State.advance; split <;> rfl
@[simp] theorem State.advance_floor (s : State) : s.advance.floor = s.floor := by unfold State.advance; split <;> rfl
@[simp] theorem State.advance_lfsr (s : State) : s.advance.lfsr = s.lfsr := by unfold State.advance; split <;> rfl
@[simp] theorem State.advance_state (s : State) : s.advance.state = s.state := by unfold State.advance; split <;> rfl
@[simp] theorem State.advance_cause (s : State) : s.advance.cause = s.cause := by unfold State.advance; split <;> rfl
@[simp] theorem State.advance_mode (s : State) : s.advance.mode = s.mode := by unfold State.advance; split <;> rfl
@[simp] theorem State.advance_flags (s : State) : s.advance.flags = s.flags := by unfold State.advance; split <;> rfl
@[simp] theorem State.advance_steps (s : State) : s.advance.steps = s.steps := by unfold State.advance; split <;> rfl
@[simp] theorem State.advance_decs (s : State) : s.advance.decs = s.decs := by unfold State.advance; split <;> rfl
@[simp] theorem State.advance_rdata (s : State) : s.advance.rdata = s.rdata := by unfold State.advance; split <;> rfl
@[simp] theorem State.advance_draws (s : State) : s.advance.draws = s.draws := by unfold State.advance; split <;> rfl

end Sys2Proof.Machine
end

