-- ==== Sys2Proof/Laws/Ops.lean ====
section
/-! SUPPORT. What each shared operation over the registers can do, said once: reading a datum, byte arrays, the register map,
the window's reads and stores. -/

namespace Sys2Proof.Machine

open Sys2Proof

/-! ### Data -/

@[simp] theorem Data.known_value (v : BitVec w) : (Data.known v).value = v := rfl
@[simp] theorem Data.known_specified (v : BitVec w) : (Data.known v).specified = true := rfl
@[simp] theorem Data.bot_value (w : Nat) : (Data.bot w).value = 0#w := rfl
@[simp] theorem Data.bot_specified (w : Nat) : (Data.bot w).specified = false := rfl
@[simp] theorem Data.resolve_known (v f : BitVec w) : (Data.known v).resolve f = v := rfl
@[simp] theorem Data.resolve_bot (f : BitVec w) : (Data.bot w).resolve f = f := rfl

/-- A specified datum reads as its value, whatever the free value is. -/
theorem Data.resolve_of_specified {d : Data w} (h : d.specified = true) (f : BitVec w) : d.resolve f = d.value := by
  simp [Data.resolve, h]

/-- An unspecified datum reads as the free value. -/
theorem Data.resolve_of_unspecified {d : Data w} (h : d.specified = false) (f : BitVec w) : d.resolve f = f := by
  simp [Data.resolve, h]

/-- A specified datum is the known datum of its value. -/
theorem Data.eq_known {d : Data w} (h : d.specified = true) : d = Data.known d.value := by
  cases d; simp_all [Data.known]

/-! ### Byte arrays -/

@[simp] theorem knownBytes_getElem (b : Bytes n) (i : Nat) (h : i < n) : (knownBytes b)[i] = Data.known b[i] := by
  simp [knownBytes]

@[simp] theorem botBytes_getElem (n i : Nat) (h : i < n) : (botBytes n)[i] = Data.bot 8 := by simp [botBytes]

@[simp] theorem resolveBytes_getElem (v : Vector (Data 8) n) (d b i : Nat) (h : i < n) :
    (resolveBytes v d b)[i] = v[i].resolve (Config.freeByte d (BitVec.ofNat 8 (b + i))) := by
  simp [resolveBytes]

@[simp] theorem valuesOf_getElem (v : Vector (Data 8) n) (i : Nat) (h : i < n) : (valuesOf v)[i] = v[i].value := by
  simp [valuesOf]

@[simp] theorem bytesOrBot_true (b : Bytes n) : bytesOrBot true b = knownBytes b := rfl
@[simp] theorem bytesOrBot_false (b : Bytes n) : bytesOrBot false b = botBytes n := rfl
@[simp] theorem wordOrBot_true (v : BitVec w) : wordOrBot true v = Data.known v := rfl
@[simp] theorem wordOrBot_false (v : BitVec w) : wordOrBot false v = Data.bot w := rfl

/-- What `knownRange` decides. -/
theorem knownRange_iff (v : Vector (Data 8) n) (lo hi : Nat) :
    knownRange v lo hi = true ↔ ∀ i : Fin n, lo ≤ i.val → i.val < hi → v[i].specified = true := by
  simp [knownRange]

@[simp] theorem knownRange_knownBytes (b : Bytes n) (lo hi : Nat) : knownRange (knownBytes b) lo hi = true := by
  simp [knownRange_iff]

@[simp] theorem resolveBytes_knownBytes (b : Bytes n) (d base : Nat) : resolveBytes (knownBytes b) d base = b := by
  ext i h; simp

@[simp] theorem be64_getElem (v : BitVec 64) (j : Nat) (h : j < 8) : (be64 v)[j] = v.extractLsb' (56 - 8 * j) 8 := by
  simp [be64]

@[simp] theorem be40_getElem (v : BitVec 40) (j : Nat) (h : j < 5) : (be40 v)[j] = v.extractLsb' (32 - 8 * j) 8 := by
  simp [be40]

/-! ### Packing -/

/-- Appending a byte below a number. -/
theorem toNat_append_byte (x : BitVec n) (y : Byte) : (x ++ y).toNat = x.toNat * 256 + y.toNat := by
  rw [BitVec.toNat_append, ← Nat.shiftLeft_add_eq_or_of_lt y.isLt, Nat.shiftLeft_eq]

/-- `unbe64` as a number: byte 0 is the most significant (00_scope.md section 5). -/
theorem unbe64_toNat (b : Bytes 8) : (unbe64 b).toNat =
    ((((((b[0].toNat * 256 + b[1].toNat) * 256 + b[2].toNat) * 256 + b[3].toNat) * 256 + b[4].toNat) * 256 +
      b[5].toNat) * 256 + b[6].toNat) * 256 + b[7].toNat := by
  unfold unbe64
  simp only [toNat_append_byte]

/-- Byte `j` of `unbe64(B)`, counted from the most significant, is `B[j]`: `be64` undoes `unbe64`. -/
theorem unbe64_byte (b : Bytes 8) (j : Fin 8) : (unbe64 b).extractLsb' (56 - 8 * j.val) 8 = b[j] := by
  apply BitVec.eq_of_toNat_eq
  rw [BitVec.extractLsb'_toNat, unbe64_toNat, Nat.shiftRight_eq_div_pow]
  have := b[0].isLt; have := b[1].isLt; have := b[2].isLt; have := b[3].isLt
  have := b[4].isLt; have := b[5].isLt; have := b[6].isLt; have := b[7].isLt
  match j with
  | 0 | 1 | 2 | 3 | 4 | 5 | 6 | 7 => simp; omega

/-- Two 64-bit values with the same bytes are equal. -/
theorem eq_of_bytes_eq {a b : BitVec 64}
    (h : ∀ j : Fin 8, a.extractLsb' (56 - 8 * j.val) 8 = b.extractLsb' (56 - 8 * j.val) 8) : a = b := by
  apply BitVec.eq_of_getLsbD_eq
  intro i hi
  have := congrArg (fun x => x.getLsbD (i % 8)) (h ⟨7 - i / 8, by omega⟩)
  simp only [BitVec.getLsbD_extractLsb'] at this
  simpa [show i % 8 < 8 by omega, show 56 - 8 * (7 - i / 8) + i % 8 = i by omega] using this

/-- What the input check of `INIT_CD` and `INIT_LF` decides (R191). -/
theorem State.inputsOk_iff (s : State) (max : Nat) :
    s.inputsOk max = true ↔ s.ivlen.toNat ≤ max ∧ 2 ≤ s.ctblks.toNat := by
  unfold State.inputsOk nBlk; exact decide_eq_true_iff

/-! ### The register map -/

/-- Only address 0x00 is `CMD`. -/
theorem locOf_eq_cmd_iff (a : Addr) : locOf a = .cmd ↔ a = 0x00 := by revert a; decide +kernel

/-- The map at the base of a register array plus an index, and at the control registers (R42). -/
theorem locOf_iv (i : Fin 16) : locOf (BitVec.ofNat 8 (0x10 + i.val)) = .iv i := by revert i; decide
theorem locOf_ct (i : Fin 32) : locOf (BitVec.ofNat 8 (0x20 + i.val)) = .ct i := by revert i; decide
theorem locOf_key (i : Fin 16) : locOf (BitVec.ofNat 8 (0x40 + i.val)) = .key i := by revert i; decide
theorem locOf_pt (i : Fin 32) : locOf (BitVec.ofNat 8 (0x50 + i.val)) = .pt i := by revert i; decide
theorem locOf_prefixReg (i : Fin 16) : locOf (BitVec.ofNat 8 (0x70 + i.val)) = .prefixReg i := by revert i; decide
theorem locOf_cnt (j : Fin 8) : locOf (BitVec.ofNat 8 (0x80 + j.val)) = .cnt j := by revert j; decide
theorem locOf_floor (j : Fin 8) : locOf (BitVec.ofNat 8 (0x88 + j.val)) = .floor j := by revert j; decide
theorem locOf_lfsr (j : Fin 5) : locOf (BitVec.ofNat 8 (0x90 + j.val)) = .lfsr j := by revert j; decide
theorem locOf_steps (j : Fin 8) : locOf (BitVec.ofNat 8 (0x98 + j.val)) = .steps j := by revert j; decide
theorem locOf_decs (j : Fin 8) : locOf (BitVec.ofNat 8 (0xA0 + j.val)) = .decs j := by revert j; decide

/-- The W-IDLE addresses as numbers (R42, R49). -/
theorem locOf_hostWritable_iff (a : Addr) :
    (locOf a).hostWritable = true ↔ a.toNat = 0x05 ∨ a.toNat = 0x06 ∨ (0x10 ≤ a.toNat ∧ a.toNat < 0x50) := by
  revert a; decide +kernel

/-! ### Stores -/

/-- A store changes no register but the five W-IDLE ones. -/
theorem State.store_frame (s : State) (l : Loc) (v : Byte) :
    s.store l v = { s with
      iv := (s.store l v).iv, ivlen := (s.store l v).ivlen, ct := (s.store l v).ct, ctblks := (s.store l v).ctblks,
      key := (s.store l v).key } := by
  cases l <;> rfl

/-- Everything a data write can do: store in IDLE, be dropped elsewhere, or nothing (R141). -/
theorem State.dataWrite_cases (s : State) (l : Loc) (v : Byte) :
    (l.hostWritable = true ∧ s.state = .idle ∧ s.dataWrite l v = s.store l v) ∨
      (l.hostWritable = true ∧ s.state ≠ .idle ∧ s.dataWrite l v = s.dropWrite) ∨
      (l.hostWritable = false ∧ s.dataWrite l v = s) := by
  by_cases h : l.hostWritable = true <;> by_cases h' : s.state = .idle <;> simp_all [State.dataWrite]

end Sys2Proof.Machine
end

