-- ==== Sys2Proof/Laws/Steps.lean ====
section
/-! SUPPORT. What the enumerator steps, the commands and a step of the machine can do, said once: their frames and their
inversion lemmas. -/

namespace Sys2Proof.Machine

open Sys2Proof

/-! ### The Oracle -/

/-- The verdict depends on `CT` and `KEY` as the operation sees them, and on nothing else. -/
theorem State.verdict_congr {s t : State} (hc : s.ctBytes = t.ctBytes) (hk : s.keyBytes = t.keyBytes) :
    s.verdict = t.verdict := by
  simp [State.verdict, hc, hk]

/-- An accepted candidate had block 1 decrypted (R25). -/
theorem Verdict.b1dec_of_acc (v : Verdict) (h : v.acc = true) : v.b1dec = true := by
  cases v <;> simp_all [Verdict.acc, Verdict.b1dec]

/-- An accepting verdict carries two blocks that pass (R83). -/
theorem oracleVerdict_accepted {ct : Bytes 32} {k p0 p1 : Block} (h : oracleVerdict ct k = .accepted p0 p1) :
    p0 = aes128Dec (block0 ct) k ∧ p1 = aes128Dec (block1 ct) k ∧ blockOk p0 = true ∧ blockOk p1 = true := by
  unfold oracleVerdict at h
  by_cases h0 : blockOk (aes128Dec (block0 ct) k) = true
  · by_cases h1 : blockOk (aes128Dec (block1 ct) k) = true
    · simp only [h0, h1, if_true] at h
      injection h with e0 e1
      exact ⟨e0.symm, e1.symm, e0 ▸ h0, e1 ▸ h1⟩
    · simp [h0, h1] at h
  · simp [h0] at h

/-! ### The enumerator steps -/

/-- After the Oracle call a countdown step writes `CNT` and `STATE` only. -/
theorem State.cdAdvance_frame (s : State) (c f : BitVec 64) :
    s.cdAdvance c f = { s with cnt := (s.cdAdvance c f).cnt, state := (s.cdAdvance c f).state } := by
  unfold State.cdAdvance; split
  · rfl
  · split <;> rfl

/-- After the Oracle call an LFSR step writes `STATE` only. -/
theorem State.lfAdvance_frame (s : State) : s.lfAdvance = { s with state := s.lfAdvance.state } := by
  unfold State.lfAdvance; split <;> rfl

/-- A countdown step writes `KEY`, `PT`, `CNT`, `STATE`, `FLAGS`, the counters and the free-value index, and nothing else (R105). -/
theorem State.countdownStep_frame (s : State) :
    s.countdownStep = { s with
      key := s.countdownStep.key, pt := s.countdownStep.pt, cnt := s.countdownStep.cnt, state := s.countdownStep.state,
      flags := s.countdownStep.flags, steps := s.countdownStep.steps, decs := s.countdownStep.decs,
      draws := s.countdownStep.draws } := by
  have h := State.cdAdvance_frame s.cdCandidate.oracle s.cntValue s.floorValue
  unfold State.countdownStep
  split
  · rw [h]; simp
  · rw [h]; simp

/-- An LFSR step writes `KEY`, `PT`, `LFSR`, `STATE`, `FLAGS`, the counters and the free-value index, and nothing else (R124). -/
theorem State.lfsrStep_frame (s : State) :
    s.lfsrStep = { s with
      key := s.lfsrStep.key, pt := s.lfsrStep.pt, lfsr := s.lfsrStep.lfsr, state := s.lfsrStep.state,
      flags := s.lfsrStep.flags, steps := s.lfsrStep.steps, decs := s.lfsrStep.decs, draws := s.lfsrStep.draws } := by
  have h := State.lfAdvance_frame s.lfCandidate.oracle
  unfold State.lfsrStep
  split
  · rw [h]; simp
  · rw [h]; simp

/-- What a countdown step writes to the control registers (R105). -/
theorem State.countdownStep_control (s : State) :
    s.countdownStep.flags = s.flags.setVerdict s.cdCandidate.verdict.acc s.cdCandidate.verdict.b1dec ∧
      s.countdownStep.steps = s.steps + 1 ∧ s.countdownStep.decs = s.decs + s.cdCandidate.verdict.decrypts ∧
      s.countdownStep.state = (if s.cdCandidate.verdict.acc then .found
        else if s.cntValue = s.floorValue then .exhausted else s.state) := by
  unfold State.countdownStep State.cdAdvance
  cases hv : s.cdCandidate.verdict.acc <;> by_cases hc : s.cntValue = s.floorValue <;> cases hb : s.cdReadsBot <;>
    simp [hv, hc]

/-- What a countdown step writes to the data registers (R105, R30(b)). -/
theorem State.countdownStep_data (s : State) :
    (s.cdReadsBot = true ∧ s.countdownStep.key = botBytes 16 ∧ s.countdownStep.cnt = Data.bot 64 ∧
        s.countdownStep.pt = botBytes 32 ∧ s.countdownStep.draws = s.draws + 1) ∨
      (s.cdReadsBot = false ∧ s.countdownStep.key = s.cdCandidate.key ∧
        s.countdownStep.cnt = (if s.cdCandidate.verdict.acc then s.cnt else Data.known (s.cntValue - 1)) ∧
        s.countdownStep.pt = s.cdCandidate.verdict.plaintext ∧ s.countdownStep.draws = s.draws) := by
  unfold State.countdownStep State.cdAdvance
  cases hb : s.cdReadsBot
  · have ho : s.cdCandidate.oracleReadsBot = false := by
      simp only [State.cdReadsBot, Bool.or_eq_false_iff] at hb; exact hb.2
    cases hv : s.cdCandidate.verdict.acc <;> by_cases hc : s.cntValue = s.floorValue <;> simp [hv, hc, ho]
  · cases hv : s.cdCandidate.verdict.acc <;> by_cases hc : s.cntValue = s.floorValue <;> simp

/-- What an LFSR step writes to the control registers (R124). -/
theorem State.lfsrStep_control (s : State) :
    s.lfsrStep.flags = s.flags.setVerdict s.lfCandidate.verdict.acc s.lfCandidate.verdict.b1dec ∧
      s.lfsrStep.steps = s.steps + 1 ∧ s.lfsrStep.decs = s.decs + s.lfCandidate.verdict.decrypts ∧
      s.lfsrStep.state = (if s.lfCandidate.verdict.acc then .found else s.state) := by
  unfold State.lfsrStep State.lfAdvance
  cases hv : s.lfCandidate.verdict.acc <;> cases hb : s.lfReadsBot <;> simp [hv]

/-- What an LFSR step writes to the data registers (R124, R30(b)). -/
theorem State.lfsrStep_data (s : State) :
    (s.lfReadsBot = true ∧ s.lfsrStep.key = botBytes 16 ∧ s.lfsrStep.lfsr = Data.bot 40 ∧
        s.lfsrStep.pt = botBytes 32 ∧ s.lfsrStep.draws = s.draws + 1) ∨
      (s.lfReadsBot = false ∧ s.lfsrStep.key = s.lfCandidate.key ∧ s.lfsrStep.lfsr = s.lfCandidate.lfsr ∧
        s.lfsrStep.pt = s.lfCandidate.verdict.plaintext ∧ s.lfsrStep.draws = s.draws) := by
  unfold State.lfsrStep State.lfAdvance
  cases hb : s.lfReadsBot
  · have ho : s.lfCandidate.oracleReadsBot = false := by
      simp only [State.lfReadsBot, Bool.or_eq_false_iff] at hb; exact hb.2
    cases hv : s.lfCandidate.verdict.acc <;> simp [hv, ho]
  · cases hv : s.lfCandidate.verdict.acc <;> simp

/-! ### Operations -/

/-- Every command is performed by the arm of its opcode-table row. -/
theorem execCommand_eq_exec (c : Command) (s : State) : execCommand c s = exec c.toInstr s := by cases c <;> rfl

/-- Everything a host write can do (R141). -/
theorem execHwr_cases (a : Addr) (v : Byte) (s : State) :
    (∃ c, decodeCommand v = .ok c ∧ exec (.hwr a v) s = exec c.toInstr s) ∨ exec (.hwr a v) s = .next s.dropCommand ∨
      exec (.hwr a v) s = .next (s.dataWrite (locOf a) v) := by
  by_cases h : locOf a = .cmd
  · cases hd : decodeCommand v with
    | ok c => exact .inl ⟨c, rfl, by rw [← execCommand_eq_exec]; simp [exec, execHwr, h, execCommandByte, hd]⟩
    | error e => exact .inr (.inl (by simp [exec, execHwr, h, execCommandByte, hd]))
  · exact .inr (.inr (by simp [exec, execHwr, h]))

/-- Everything an operation other than a host write can do: the state after each, as the named operation it is. -/
theorem exec_cases {i : Instr} {s t : State} (hi : ∀ a v, i ≠ .hwr a v) (h : exec i s = .next t) :
    (∃ a, i = .hrd a ∧ t = s.afterRead a) ∨ t = s ∨ t = s.dropCommand ∨
      ((i = .initCd ∨ i = .initLf ∨ i = .test) ∧ s.state = .idle ∧ t = s.raiseInvalidInputLength) ∨
      (i = .initCd ∧ s.state = .idle ∧ s.inputsOk ivMax = true ∧ t = s.initCountdown) ∨
      (i = .initLf ∧ s.state = .idle ∧ s.inputsOk lfPrefix = true ∧ t = s.initLfsr) ∨
      (i = .test ∧ s.state = .idle ∧ t = s.oracle) ∨
      (i = .run ∧ s.state = .paused ∧ t = { s with state := .run }) ∨
      (i = .stop ∧ s.state = .run ∧ t = { s with state := .paused }) ∨
      (i = .clear ∧ t = s.clearControl) ∨
      ((i = .cdStep ∨ (i = .step ∧ s.state = .paused ∧ s.mode = .countdown)) ∧ t = s.countdownStep) ∨
      ((i = .lfStep ∨ (i = .step ∧ s.state = .paused ∧ s.mode = .lfsr)) ∧ t = s.lfsrStep) := by
  cases i with
  | hrd a => simp only [exec, execHrd] at h; injection h with h; exact .inl ⟨a, rfl, h.symm⟩
  | hwr a v => exact absurd rfl (hi a v)
  | nop => simp only [exec, execNop] at h; injection h with h; simp [h]
  | initCd =>
    simp only [exec, execInitCd] at h; injection h with h
    split at h
    · split at h <;> simp_all
    · simp [h]
  | initLf =>
    simp only [exec, execInitLf] at h; injection h with h
    split at h
    · split at h <;> simp_all
    · simp [h]
  | step =>
    simp only [exec, execStep] at h
    split at h
    · rename_i hp
      cases hm : s.mode <;> simp only [State.selectedStep, hm] at h
      · cases h
      · injection h with h; simp [h, hp]
      · injection h with h; simp [h, hp]
    · injection h with h; simp [h]
  | run =>
    simp only [exec, execRun] at h; injection h with h
    split at h
    · simp_all
    · split at h <;> simp [h]
  | stop =>
    simp only [exec, execStop] at h; injection h with h
    split at h <;> simp_all
  | test =>
    simp only [exec, execTest] at h; injection h with h
    split at h
    · split at h <;> simp_all
    · simp [h]
  | clear => simp only [exec, execClear] at h; injection h with h; simp [h]
  | cdStep => simp only [exec, execCdStep] at h; injection h with h; simp [h]
  | lfStep => simp only [exec, execLfStep] at h; injection h with h; simp [h]

/-! ### A step of the machine -/

/-- What the engine's turn selects. -/
theorem State.engineSelects_cases (s : State) :
    (s.state = .run ∧ s.mode = .countdown ∧ s.engineSelects = .perform .cdStep s) ∨
      (s.state = .run ∧ s.mode = .lfsr ∧ s.engineSelects = .perform .lfStep s) ∨
      (s.state = .run ∧ s.mode = .none ∧ s.engineSelects = .refuse .modeSelectsNothing) ∨
      (s.state ≠ .run ∧ s.engineSelects = .settle s) := by
  unfold State.engineSelects
  by_cases h : s.state = .run
  · cases hm : s.mode <;> simp [h, Mode.code, decodeEs]
  · simp [h]

/-- Taking an event off changes the events to come and the number of the round, and nothing else. -/
theorem State.advance_frame (s : State) :
    s.advance = { s with schedule := s.advance.schedule, rounds := s.advance.rounds } := by
  unfold State.advance; split <;> rfl

/-- Everything a step can do, on the state with the event taken off: the reset, nothing, the engine step of the mode in RUN, or a
host transaction's operation. -/
theorem step_cases {s t : State} (h : step s = .next t) :
    (s.nextEvent = .rst ∧ t = s.advance.applyReset) ∨
      (s.nextEvent = .engineTurn ∧ s.state ≠ .run ∧ t = s.advance) ∨
      (s.nextEvent = .engineTurn ∧ s.state = .run ∧ s.mode = .countdown ∧ t = s.advance.countdownStep) ∨
      (s.nextEvent = .engineTurn ∧ s.state = .run ∧ s.mode = .lfsr ∧ t = s.advance.lfsrStep) ∨
      ∃ w, s.nextEvent = .transaction w ∧ exec (decodeHt w) s.advance = .next t := by
  unfold step State.select at h
  cases he : s.nextEvent with
  | transaction w => simp only [he] at h; exact .inr (.inr (.inr (.inr ⟨w, rfl, h⟩)))
  | rst => simp only [he] at h; injection h with h; exact .inl ⟨rfl, h.symm⟩
  | engineTurn =>
    simp only [he] at h
    rcases s.advance.engineSelects_cases with ⟨h1, h2, h3⟩ | ⟨h1, h2, h3⟩ | ⟨_, _, h3⟩ | ⟨h1, h3⟩ <;>
      simp only [h3, State.advance_state, State.advance_mode] at *
    · simp only [exec, execCdStep] at h; injection h with h; simp [h1, h2, h]
    · simp only [exec, execLfStep] at h; injection h with h; simp [h1, h2, h]
    · cases h
    · injection h with h; simp [h1, h]

/-! ### The world -/

/-- Storing a byte leaves the events to come alone. -/
theorem State.store_world (s : State) (l : Loc) (v : Byte) :
    (s.store l v).schedule = s.schedule ∧ (s.store l v).rounds = s.rounds := by cases l <;> exact ⟨rfl, rfl⟩

/-- No operation touches the events to come or the number of the round. -/
theorem exec_world {i : Instr} {s t : State} (h : exec i s = .next t) : t.schedule = s.schedule ∧ t.rounds = s.rounds := by
  have other : ∀ {j : Instr}, (∀ a v, j ≠ .hwr a v) → exec j s = .next t → t.schedule = s.schedule ∧ t.rounds = s.rounds := by
    intro j hj hx
    rcases exec_cases hj hx with ⟨_, _, e⟩ | e | e | ⟨_, _, e⟩ | ⟨_, _, _, e⟩ | ⟨_, _, _, e⟩ | ⟨_, _, e⟩ | ⟨_, _, e⟩ |
      ⟨_, _, e⟩ | ⟨_, e⟩ | ⟨_, e⟩ | ⟨_, e⟩ <;> subst e
    all_goals first
      | exact ⟨rfl, rfl⟩
      | simp
      | (rw [State.countdownStep_frame]; exact ⟨rfl, rfl⟩)
      | (rw [State.lfsrStep_frame]; exact ⟨rfl, rfl⟩)
  by_cases hi : ∃ a v, i = .hwr a v
  · obtain ⟨a, v, rfl⟩ := hi
    rcases execHwr_cases a v s with ⟨c, _, e⟩ | e | e <;> rw [e] at h
    · exact other (by cases c <;> simp [Command.toInstr]) h
    · injection h with h; subst h; simp
    · injection h with h; subst h
      unfold State.dataWrite
      split
      · split
        · exact s.store_world _ _
        · simp
      · exact ⟨rfl, rfl⟩
  · exact other (fun a v e => hi ⟨a, v, e⟩) h

/-- A step takes one event off, and that is all it does to the events to come. -/
theorem step_world {s t : State} (h : step s = .next t) : t.schedule = s.advance.schedule ∧ t.rounds = s.advance.rounds := by
  rcases step_cases h with ⟨_, e⟩ | ⟨_, _, e⟩ | ⟨_, _, _, e⟩ | ⟨_, _, _, e⟩ | ⟨w, _, e⟩
  · subst e; simp
  · subst e; exact ⟨rfl, rfl⟩
  · subst e; rw [State.countdownStep_frame]; exact ⟨rfl, rfl⟩
  · subst e; rw [State.lfsrStep_frame]; exact ⟨rfl, rfl⟩
  · exact exec_world e

end Sys2Proof.Machine
end

