-- ==== Sys2Proof/Laws/Oracle.lean ====
section
/-! SUPPORT. The Oracle and the enumerator steps in the terms of the statements: when an operand holds `⊥`, and that otherwise
their verdict is the row of R87 for the candidate. -/

namespace Sys2Proof.Laws

open Sys2Proof Sys2Proof.Machine Sys2Proof.Safety

/-- Filling with `⊥`. -/
theorem botBytes_eq (n : Nat) : botBytes n = Vector.replicate n (Data.bot 8) := by ext <;> simp

/-- An array of specified bytes. -/
theorem map_known (b : Bytes n) : b.map Data.known = knownBytes b := by ext <;> simp

/-- The two shapes in which a 16-byte candidate is built (R104, R123), byte by byte. -/
theorem keyCd_getElem (p : Bytes 16) (c : BitVec 64) (i : Nat) (h : i < 16) :
    (keyCd p c)[i] = if i < 8 then p[i] else c.extractLsb' (56 - 8 * (i - 8)) 8 := by
  unfold keyCd
  rw [Vector.getElem_ofFn]
  by_cases hi : i < 8 <;> simp [cdPrefix, hi]
theorem keyLf_getElem (p : Bytes 16) (r : BitVec 40) (i : Nat) (h : i < 16) :
    (keyLf p r)[i] = if i < 11 then p[i] else r.extractLsb' (32 - 8 * (i - 11)) 8 := by
  unfold keyLf
  rw [Vector.getElem_ofFn]
  by_cases hi : i < 11 <;> simp [lfPrefix, hi]

/-- A verdict as a row of R87. -/
def verdictRow (v : Verdict) : OracleRow := { acc := v.acc, b1dec := v.b1dec, decs := v.decrypts, pt := v.plaintext }

@[simp] theorem verdictRow_acc (v : Verdict) : (verdictRow v).acc = v.acc := rfl
@[simp] theorem verdictRow_b1dec (v : Verdict) : (verdictRow v).b1dec = v.b1dec := rfl
@[simp] theorem verdictRow_decs (v : Verdict) : (verdictRow v).decs = v.decrypts := rfl
@[simp] theorem verdictRow_pt (v : Verdict) : (verdictRow v).pt = v.plaintext := rfl

/-- The Oracle's decision on two plaintext blocks is the row of R87. -/
theorem verdictRow_of_blocks (p0 p1 : Block) :
    verdictRow (if blockOk p0 then (if blockOk p1 then .accepted p0 p1 else .block1Fails) else .block0Fails) =
      oracleRow p0 p1 := by
  unfold oracleRow
  cases h0 : blockOk p0
  · simp [verdictRow, Verdict.acc, Verdict.b1dec, Verdict.decrypts, Verdict.plaintext, botBytes_eq]
  · cases h1 : blockOk p1
    · simp [verdictRow, Verdict.acc, Verdict.b1dec, Verdict.decrypts, Verdict.plaintext, botBytes_eq]
    · simp only [verdictRow, Verdict.acc, Verdict.b1dec, Verdict.decrypts, Verdict.plaintext, map_known, if_true]; rfl

/-- The verdict on a ciphertext and a key is the row of its two decryptions (R83, R87). -/
theorem verdictRow_oracleVerdict (ct : Bytes 32) (k : Block) :
    verdictRow (oracleVerdict ct k) = oracleRow (aes128Dec (block0 ct) k) (aes128Dec (block1 ct) k) := by
  rw [← verdictRow_of_blocks, oracleVerdict]

/-- A row of the state depends on `CT` only. -/
theorem row_congr {s t : State} (h : s.ct = t.ct) (k : Block) : row s k = row t k := by
  unfold row cipher0 cipher1; rw [h]

/-- The ciphertext blocks as the Oracle sees them, when they are specified. -/
theorem block0_ctBytes (s : State) (h : SpecifiedOn s.ct 0 32) : block0 s.ctBytes = cipher0 s := by
  ext i hi : 1
  simp only [block0, cipher0, Vector.getElem_ofFn, State.ctBytes, resolveBytes_getElem]
  exact Data.resolve_of_specified (h ⟨i, by omega⟩ (Nat.zero_le _) (by simp; omega)) _
theorem block1_ctBytes (s : State) (h : SpecifiedOn s.ct 0 32) : block1 s.ctBytes = cipher1 s := by
  ext i hi : 1
  simp only [block1, cipher1, Vector.getElem_ofFn, State.ctBytes, resolveBytes_getElem]
  exact Data.resolve_of_specified (h ⟨i + 16, by omega⟩ (Nat.zero_le _) (by simp; omega)) _

/-- What the Oracle finds, when `CT` is specified: the row of R87 for its key. -/
theorem verdictRow_verdict {s : State} {k : Block} (hk : s.keyBytes = k) (h : SpecifiedOn s.ct 0 32) :
    verdictRow s.verdict = row s k := by
  rw [State.verdict, verdictRow_oracleVerdict, hk, block0_ctBytes s h, block1_ctBytes s h, row]

/-- The key the Oracle sees is `KEY`, when it is specified. -/
theorem keyBytes_eq {s : State} (h : SpecifiedOn s.key 0 16) : s.keyBytes = keyValue s := by
  ext i hi : 1
  simp only [keyValue, Vector.getElem_ofFn, State.keyBytes, resolveBytes_getElem]
  exact Data.resolve_of_specified (h ⟨i, by omega⟩ (Nat.zero_le _) hi) _

/-- An operand of `TEST` holds `⊥` exactly when `TestSpecified` fails. -/
theorem oracleReadsBot_iff (s : State) : s.oracleReadsBot = false ↔ TestSpecified s := by
  simp only [State.oracleReadsBot, Bool.not_eq_false', Bool.and_eq_true, knownRange_iff, TestSpecified, SpecifiedOn]

/-- Of a step's Oracle call only `CT` can hold `⊥`: the candidate in `KEY` is written by the step. -/
theorem cdCandidate_oracleReadsBot_iff (s : State) : s.cdCandidate.oracleReadsBot = false ↔ SpecifiedOn s.ct 0 32 := by
  simp [State.oracleReadsBot, knownRange_knownBytes, knownRange_iff, SpecifiedOn]
theorem lfCandidate_oracleReadsBot_iff (s : State) : s.lfCandidate.oracleReadsBot = false ↔ SpecifiedOn s.ct 0 32 := by
  simp [State.oracleReadsBot, knownRange_knownBytes, knownRange_iff, SpecifiedOn]

/-- A specified prefix byte as a step sees it. -/
theorem prefixBytes_getElem {s : State} {n i : Nat} (h : SpecifiedOn s.prefixReg 0 n) (hi : i < 16) (hn : i < n) :
    s.prefixBytes[i] = s.prefixReg[i].value := by
  simp only [State.prefixBytes, resolveBytes_getElem]
  exact Data.resolve_of_specified (h ⟨i, hi⟩ (Nat.zero_le _) hn) _

/-- The countdown candidate, when what it is built from is specified (R104). -/
theorem cdKey_eq {s : State} (hp : SpecifiedOn s.prefixReg 0 8) (hc : s.cnt.specified = true) :
    keyCd s.prefixBytes s.cntValue = cdKey s := by
  ext i hi : 1
  rw [keyCd_getElem, cdKey, Vector.getElem_ofFn, State.cntValue, Data.resolve_of_specified hc]
  by_cases h : i < 8
  · rw [if_pos h, if_pos h, prefixBytes_getElem hp hi h]; rfl
  · rw [if_neg h, if_neg h]

/-- The LFSR candidate, when what it is built from is specified (R123, R124). -/
theorem lfKey_eq {s : State} (hp : SpecifiedOn s.prefixReg 0 11) (hc : s.lfsr.specified = true) :
    keyLf s.prefixBytes (lfsrNext s.lfsrValue) = lfKey s (lfsrNext s.lfsr.value) := by
  ext i hi : 1
  rw [keyLf_getElem, lfKey, Vector.getElem_ofFn, State.lfsrValue, Data.resolve_of_specified hc]
  by_cases h : i < 11
  · rw [if_pos h, if_pos h, prefixBytes_getElem hp hi h]; rfl
  · rw [if_neg h, if_neg h]

/-- The key the Oracle sees in a step is the candidate. -/
theorem cdCandidate_keyBytes (s : State) : s.cdCandidate.keyBytes = keyCd s.prefixBytes s.cntValue := by
  rw [State.keyBytes, State.cdCandidate_key, resolveBytes_knownBytes]
theorem lfCandidate_keyBytes (s : State) : s.lfCandidate.keyBytes = keyLf s.prefixBytes (lfsrNext s.lfsrValue) := by
  rw [State.keyBytes, State.lfCandidate_key, resolveBytes_knownBytes]

/-- What the Oracle finds in a countdown step whose operands are specified. -/
theorem cdCandidate_verdictRow {s : State} (h : CdSpecified s) : verdictRow s.cdCandidate.verdict = row s (cdKey s) := by
  rw [verdictRow_verdict ((cdCandidate_keyBytes s).trans (cdKey_eq h.1 h.2.1)) (s.cdCandidate_ct ▸ h.2.2.2),
    row_congr s.cdCandidate_ct]

/-- What the Oracle finds in an LFSR step whose operands are specified. -/
theorem lfCandidate_verdictRow {s : State} (h : LfSpecified s) :
    verdictRow s.lfCandidate.verdict = row s (lfKey s (lfsrNext s.lfsr.value)) := by
  rw [verdictRow_verdict ((lfCandidate_keyBytes s).trans (lfKey_eq h.1 h.2.1)) (s.lfCandidate_ct ▸ h.2.2),
    row_congr s.lfCandidate_ct]

/-- An operand of `CD_STEP` holds `⊥` exactly when `CdSpecified` fails. -/
theorem cdReadsBot_iff (s : State) : s.cdReadsBot = false ↔ CdSpecified s := by
  simp only [State.cdReadsBot, Bool.or_eq_false_iff, cdCandidate_oracleReadsBot_iff, Bool.not_eq_false', Bool.and_eq_true,
    knownRange_iff, cdPrefix, CdSpecified, and_assoc]
  rfl

/-- An operand of `LF_STEP` holds `⊥` exactly when `LfSpecified` fails. -/
theorem lfReadsBot_iff (s : State) : s.lfReadsBot = false ↔ LfSpecified s := by
  simp only [State.lfReadsBot, Bool.or_eq_false_iff, lfCandidate_oracleReadsBot_iff, Bool.not_eq_false', Bool.and_eq_true,
    knownRange_iff, lfPrefix, LfSpecified, and_assoc]
  rfl

end Sys2Proof.Laws
end

