-- ==== Sys2Proof/Laws/PerInstr.lean ====
section
/-! SUPPORT. A fact about every operation as syntax: its encoding fits the width of its format (R60 to R64). -/

namespace Sys2Proof.Laws

open Sys2Proof

/-- The encoding of `i` is a number of the width of its format. -/
def EncodeFits.Statement (i : Instr) : Prop := encode i < 2 ^ i.format.bits

theorem EncodeFits.hrd (a : Addr) : EncodeFits.Statement (.hrd a) := by
  have := a.isLt; simp only [EncodeFits.Statement, encode, Instr.format, Format.bits]; omega
theorem EncodeFits.hwr (a : Addr) (v : Byte) : EncodeFits.Statement (.hwr a v) := by
  have := a.isLt; have := v.isLt; simp only [EncodeFits.Statement, encode, Instr.format, Format.bits]; omega
theorem EncodeFits.nop : EncodeFits.Statement .nop := by unfold EncodeFits.Statement; decide
theorem EncodeFits.initCd : EncodeFits.Statement .initCd := by unfold EncodeFits.Statement; decide
theorem EncodeFits.initLf : EncodeFits.Statement .initLf := by unfold EncodeFits.Statement; decide
theorem EncodeFits.step : EncodeFits.Statement .step := by unfold EncodeFits.Statement; decide
theorem EncodeFits.run : EncodeFits.Statement .run := by unfold EncodeFits.Statement; decide
theorem EncodeFits.stop : EncodeFits.Statement .stop := by unfold EncodeFits.Statement; decide
theorem EncodeFits.test : EncodeFits.Statement .test := by unfold EncodeFits.Statement; decide
theorem EncodeFits.clear : EncodeFits.Statement .clear := by unfold EncodeFits.Statement; decide
theorem EncodeFits.cdStep : EncodeFits.Statement .cdStep := by unfold EncodeFits.Statement; decide
theorem EncodeFits.lfStep : EncodeFits.Statement .lfStep := by unfold EncodeFits.Statement; decide

end Sys2Proof.Laws
end

