-- ==== Sys2Proof/Tests/Slice0.lean ====
section
/-! SUPPORT. The author's tests: the well-formedness smoke test, decoding of words written out from 30_encoding.md, one or two
steps of each operation with the values of 95_test_vectors.md, and, for every statement with hypotheses, states that meet
them. -/

namespace Sys2Proof.Tests

open Sys2Proof Sys2Proof.Machine Sys2Proof.Safety Sys2Proof.Laws

-- One theorem at a time: theorems that wait on a long kernel evaluation each hold a thread and its stack.
set_option Elab.async false

/-! ### Helpers -/

/-- `n` bytes written as one hexadecimal number, the first byte the most significant. -/
def bytesOf (n v : Nat) : Bytes n := Vector.ofFn fun i => BitVec.ofNat 8 (v >>> (8 * (n - 1 - i.val)))

/-- The plaintext `S`, the keys and the ciphertexts of 95_test_vectors.md 2.1. -/
def textS : Nat := 0x54484520515549434B2042524F574E20464F58204A554D5053204F5645522121
def key0 : Nat := 0x000102030405060708090A0B0C0D0E0F
def ct0 : Nat := 0x7EE00153393CD2BC8485386D2F4F49275D3D12690E6CFC81B252F08E892D3CB0
def key1 : Nat := 0x2B7E151628AED2A6ABF7158809CF4F3C
def ct1 : Nat := 0xAFD34E114C6A40173205AEC7F0CD0C848AAA911285A2AEBB788E7FC585B949D3
def key2 : Nat := 0x2B7E151628AED2A6ABF715FE00000000
def ct2 : Nat := 0xD5092A5ED0650AD54871B489A8DEE4D6E8EFF8CDF8A348BE975F9EB0C5C5CF77

/-- A state in IDLE with `IV`, `CT` and `KEY` written and two blocks declared. -/
def loaded (len : BitVec 8) (iv ct key : Nat) : State :=
  { State.reset with
    iv := knownBytes (bytesOf 16 iv), ivlen := len, ct := knownBytes (bytesOf 32 ct), ctblks := 2
    key := knownBytes (bytesOf 16 key) }

/-- A countdown search in control state `c`. -/
def cdSearch (c : ControlState) (ct pfx : Nat) (cnt floor : BitVec 64) : State :=
  { loaded 16 pfx ct 0 with
    prefixReg := knownBytes (bytesOf 16 pfx), cnt := Data.known cnt, floor := Data.known floor, mode := .countdown
    state := c }

/-- An LFSR search in control state `c`. -/
def lfSearch (c : ControlState) (ct pfx : Nat) (r : BitVec 40) : State :=
  { loaded 11 pfx ct 0 with
    prefixReg := knownBytes (bytesOf 16 pfx), lfsr := Data.known r, mode := .lfsr, state := c }

/-- The answer is a next state of which `p` holds. -/
def nextIs (o : Answer) (p : State → Bool) : Bool :=
  match o with
  | .next t => p t
  | .fault _ => false
  | .refused _ => false

theorem nextIs_exists {o : Answer} {p : State → Bool} (h : nextIs o p = true) : ∃ t, o = .next t := by
  cases o <;> simp_all [nextIs]

/-! ### Well-formedness: an operation is refused in a format that is not its own (R60) -/

theorem test_wellFormed_refuses_hrd_as_command : Instr.wellFormedIn .cb (.hrd 0x01) = false := by decide
theorem test_wellFormed_refuses_command_as_transaction : Instr.wellFormedIn .ht .initCd = false := by decide
theorem test_wellFormed_refuses_step_as_command : Instr.wellFormedIn .cb .cdStep = false := by decide
theorem test_wellFormed_accepts :
    Instr.wellFormedIn .ht (.hwr 0xFF 0xFF) = true ∧ Instr.wellFormedIn .cb .clear = true ∧
      Instr.wellFormedIn .es .lfStep = true := by decide

/-! ### Decoding: words written out from R61 to R64 and from the programs of 95_test_vectors.md -/

theorem test_decode_hrd : decodeTableWord 17 0x00100 = some (.hrd 0x01) := by decide
theorem test_decode_hrd_ignores_wdata : decodeTableWord 24 0x0A7FF = some (.hrd 0xA7) := by decide
theorem test_decode_hwr : decodeTableWord 17 0x1050B = some (.hwr 0x05 0x0B) := by decide
theorem test_decode_hwr_in_whole_bytes : decodeTableWord 24 0x13FD3 = some (.hwr 0x3F 0xD3) := by decide
theorem test_decode_nop : decodeTableWord 8 0x00 = some .nop := by decide
theorem test_decode_initCd : decodeTableWord 8 0x01 = some .initCd := by decide
theorem test_decode_initLf : decodeTableWord 8 0x02 = some .initLf := by decide
theorem test_decode_step : decodeTableWord 8 0x03 = some .step := by decide
theorem test_decode_run : decodeTableWord 8 0x04 = some .run := by decide
theorem test_decode_stop : decodeTableWord 8 0x05 = some .stop := by decide
theorem test_decode_test : decodeTableWord 8 0x06 = some .test := by decide
theorem test_decode_clear : decodeTableWord 8 0x07 = some .clear := by decide
theorem test_decode_cdStep : decodeTableWord 2 0b01 = some .cdStep := by decide
theorem test_decode_lfStep : decodeTableWord 2 0b10 = some .lfStep := by decide
theorem test_decode_rejects :
    decodeTableWord 8 0x08 = none ∧ decodeTableWord 8 0xFF = none ∧ decodeTableWord 2 0b00 = none ∧
      decodeTableWord 2 0b11 = none ∧ decodeTableWord 24 0x20000 = none := by decide
theorem test_command_words : commandWord .initCd = 0x10001 ∧ commandWord .clear = 0x10007 ∧ readWord 0x01 = 0x00100 := by decide
theorem test_withFetchWord_places_the_operation :
    (State.reset.withFetchWord 17 0x1050B).select = .perform (.hwr 0x05 0x0B) State.reset ∧
      (State.reset.withFetchWord 8 0x05).select = .perform (.hwr 0x00 0x05) State.reset := by decide
theorem test_withFetchWord_places_the_engine_step :
    (State.reset.withFetchWord 2 0b10).select = .perform .lfStep { State.reset with state := .run, mode := .lfsr } := by
  decide

/-! ### One step of each operation -/

/-- V-CT1, V-CT4: after reset `STATE` reads 0, and so do `CMD` and the reserved addresses. -/
theorem test_hrd_after_reset :
    nextIs (exec (.hrd 0x01) State.reset) (·.rdata == 0x00) ∧ nextIs (exec (.hrd 0xF0) State.reset) (·.rdata == 0x00) := by
  decide
/-- P4: `CNT` reads most significant byte first. -/
theorem test_hrd_cnt :
    nextIs (exec (.hrd 0x80) (cdSearch .paused ct1 key1 0xABF7158809CF4F3D 0)) (·.rdata == 0xAB) ∧
      nextIs (exec (.hrd 0x87) (cdSearch .paused ct1 key1 0xABF7158809CF4F3D 0)) (·.rdata == 0x3D) := by decide +kernel
/-- V-CT6: `IVLEN` stores any byte. -/
theorem test_hwr_ivlen : nextIs (exec (.hwr 0x05 0x11) State.reset) (·.ivlen == 0x11) := by decide
/-- V-CT7: in PAUSED a write to `IV` is dropped and sets `ILLWR`. -/
theorem test_hwr_dropped :
    nextIs (exec (.hwr 0x10 0xAA) (cdSearch .paused ct1 key1 0 0))
      (fun t => t.iv[0] == Data.known 0x2B && t.flags.toByte == 0x08) := by decide +kernel
/-- V-CT10. -/
theorem test_nop : nextIs (exec .nop (cdSearch .run ct1 key1 5 3)) (· == cdSearch .run ct1 key1 5 3) := by decide +kernel
/-- V-CI7: 15 known bytes. -/
theorem test_initCd :
    nextIs (exec .initCd (loaded 15 key1 ct1 0))
      (fun t => t.cnt == Data.known 0xABF7158809CF4FFF && t.floor == Data.known 0xABF7158809CF4F00 &&
        t.prefixReg == knownBytes (bytesOf 16 (key1 ||| 0xFF)) && t.state == .paused && t.mode == .countdown) := by
  decide +kernel
/-- V-CI10: `IVLEN` 17 raises InvalidInputLength and writes no data register. -/
theorem test_initCd_fails :
    nextIs (exec .initCd (loaded 17 key1 ct1 0))
      (fun t => t == { loaded 17 key1 ct1 0 with state := .error, cause := 0x01 }) := by decide +kernel
/-- V-LI1. -/
theorem test_initLf :
    nextIs (exec .initLf (loaded 11 key2 ct2 0))
      (fun t => t.lfsr == Data.known 0x0000000001 && t.prefixReg == knownBytes (bytesOf 16 (key2 ||| 0xFFFFFFFFFF)) &&
        t.state == .paused && t.mode == .lfsr) := by decide +kernel
/-- V-LI4: `IVLEN` 12 is too long for the LFSR. -/
theorem test_initLf_fails :
    nextIs (exec .initLf (loaded 12 key1 ct1 0)) (fun t => t.state == .error && t.cause == 0x01 && t.mode == .none) := by
  decide +kernel
/-- V-CT19: a rejected candidate of a single step. -/
theorem test_step :
    nextIs (exec .step { cdSearch .paused ct1 key1 0xABF7158809CF4FF5 0xABF7158809CF4F00 with steps := 0x0A })
      (fun t => t.state == .paused && t.cnt == Data.known 0xABF7158809CF4FF4 && t.key[15] == Data.known 0xF5 &&
        t.steps == 0x0B) := by decide +kernel
/-- V-CT11: in IDLE it is dropped. -/
theorem test_step_dropped : nextIs (exec .step State.reset) (fun t => t.state == .idle && t.flags.toByte == 0x04) := by decide
/-- R145. -/
theorem test_run : nextIs (exec .run (lfSearch .paused ct2 key2 1)) (fun t => t.state == .run && t.steps == 0) := by
  decide +kernel
/-- V-CT14. -/
theorem test_stop : nextIs (exec .stop (lfSearch .run ct2 key2 1)) (fun t => t.state == .paused && t.flags.toByte == 0) := by
  decide +kernel
/-- V-OR1: both blocks pass. -/
theorem test_test_accepts :
    nextIs (exec .test (loaded 0 0 ct0 key0))
      (fun t => t.flags.toByte == 0x03 && t.steps == 1 && t.decs == 2 && t.pt == knownBytes (bytesOf 32 textS) &&
        t.state == .idle) := by decide +kernel
/-- V-OR3: block 0 passes, the first byte of block 1 is 0x1F. -/
theorem test_test_block1 :
    nextIs (exec .test (loaded 0 0 0x7EE00153393CD2BC8485386D2F4F492720686C1DA02021A09D60B6A3366A3E06 key0))
      (fun t => t.flags.toByte == 0x02 && t.decs == 2 && t.pt == botBytes 32) := by decide +kernel
/-- V-EX3. -/
theorem test_clear :
    nextIs (exec .clear { loaded 17 key1 ct1 0 with state := .error, cause := 0x01 }) (· == loaded 17 key1 ct1 0) := by
  decide +kernel
/-- V-CD2: the last step of the search, accepted. -/
theorem test_cdStep_accepts :
    nextIs (exec .cdStep (cdSearch .run ct1 key1 0xABF7158809CF4F3C 0xABF7158809CF4F3C))
      (fun t => t.state == .found && t.flags.toByte == 0x03 && t.key == knownBytes (bytesOf 16 key1) &&
        t.cnt == Data.known 0xABF7158809CF4F3C && t.decs == 2 && t.pt == knownBytes (bytesOf 32 textS)) := by decide +kernel
/-- V-LF4: the eighth step accepts. -/
theorem test_lfStep_accepts :
    nextIs (exec .lfStep (lfSearch .run ct2 key2 0xFC00000000))
      (fun t => t.state == .found && t.lfsr == Data.known 0xFE00000000 && t.key == knownBytes (bytesOf 16 key2)) := by
  decide +kernel
/-- V-RS1. -/
theorem test_reset :
    nextIs (step { cdSearch .found ct1 key1 5 3 with schedule := [.rst] }) (· == State.reset) := by decide +kernel
/-- V-LF1: `NEXT` of four values. -/
theorem test_lfsrNext :
    lfsrNext 0x0000280005 = 0x8000140002 ∧ lfsrNext 0x123456789A = 0x891A2B3C4D ∧ lfsrNext 0xAAAAAAAAAA = 0xD555555555 ∧
      lfsrNext 0xFFFFE00000 = 0x7FFFF00000 := by decide +kernel

/-! ### States that meet the hypotheses of the statements -/

/-- Everything is specified in an array of known bytes. -/
theorem specifiedOn_known (b : Bytes n) (lo hi : Nat) : SpecifiedOn (knownBytes b) lo hi := by
  intro i _ _; simp

theorem test_witness_EveryFormatDecodesItsEncoding :
    Instr.wellFormedIn .ht (.hrd 0x00) = true ∧ Instr.wellFormedIn .ht (.hwr 0xFF 0xFF) = true ∧
      Instr.wellFormedIn .cb .nop = true ∧ Instr.wellFormedIn .es .cdStep = true := by decide
theorem test_witness_StepPerformsTheHostTransaction :
    ({ State.reset with schedule := [.transaction 0x1FFFF, .rst] } : State).schedule = .transaction 0x1FFFF :: [.rst] := rfl
/-- Scheduled turns of the engine and turns at the end of a round; every `MODE` in RUN, and a `STATE` other than RUN. -/
theorem test_witness_StepPerformsTheSelectedEngineStep :
    (({ cdSearch .run ct1 key1 5 3 with schedule := [.engineTurn, .rst] } : State).schedule = .engineTurn :: [.rst] ∧
      (cdSearch .run ct1 key1 5 3).state = .run ∧ (cdSearch .run ct1 key1 5 3).mode = .countdown) ∧
    ((lfSearch .run ct2 key2 1).schedule = [] ∧ (lfSearch .run ct2 key2 1).state = .run ∧
      (lfSearch .run ct2 key2 1).mode = .lfsr) ∧
    (({ State.reset with state := .run } : State).schedule = [] ∧ ({ State.reset with state := .run } : State).mode = .none) ∧
    (State.reset.schedule = [] ∧ State.reset.state ≠ .run) := by decide
theorem test_witness_StepTakesTheReset :
    ({ cdSearch .run ct1 key1 5 3 with schedule := [.rst] } : State).schedule = .rst :: [] := rfl
/-- A state in which every array and every integer is specified, at the first and the last index. -/
theorem test_witness_HostReadReturnsArrayBytes :
    let s : State := { cdSearch .paused ct1 key1 5 3 with pt := knownBytes (bytesOf 32 textS), lfsr := Data.known 1 }
    (s.iv[0].specified = true ∧ s.iv[15].specified = true) ∧ (s.ct[0].specified = true ∧ s.ct[31].specified = true) ∧
      (s.key[0].specified = true ∧ s.key[15].specified = true) ∧ (s.pt[0].specified = true ∧ s.pt[31].specified = true) ∧
      (s.prefixReg[0].specified = true ∧ s.prefixReg[15].specified = true) := by decide +kernel
theorem test_witness_HostReadReturnsIntegersBigEndian :
    let s : State := { cdSearch .paused ct1 key1 5 3 with lfsr := Data.known 1 }
    s.cnt.specified = true ∧ s.floor.specified = true ∧ (s.lfsr.specified = true ∧ (0 : Fin 8).val < 5 ∧ (4 : Fin 8).val < 5) := by
  decide
theorem test_witness_HostReadOfCmdAndReservedIsZero :
    ReservedAddr 0x07 ∧ ReservedAddr 0x0F ∧ ReservedAddr 0x95 ∧ ReservedAddr 0x97 ∧ ReservedAddr 0xA8 ∧ ReservedAddr 0xFF ∧
      ¬ ReservedAddr 0x06 ∧ ¬ ReservedAddr 0x10 ∧ ¬ ReservedAddr 0x94 ∧ ¬ ReservedAddr 0x98 ∧ ¬ ReservedAddr 0xA7 := by
  unfold ReservedAddr; decide
/-- After reset, at the first and last address of each array and integer. -/
theorem test_witness_HostReadOfUnspecifiedByteIsFree :
    let s := State.reset
    (∃ i : Fin 16, (0x10 : Addr).toNat = 0x10 + i.val ∧ s.iv[i].specified = false) ∧
      (∃ i : Fin 16, (0x1F : Addr).toNat = 0x10 + i.val ∧ s.iv[i].specified = false) ∧
      (∃ i : Fin 32, (0x20 : Addr).toNat = 0x20 + i.val ∧ s.ct[i].specified = false) ∧
      (∃ i : Fin 32, (0x3F : Addr).toNat = 0x20 + i.val ∧ s.ct[i].specified = false) ∧
      (∃ i : Fin 16, (0x4F : Addr).toNat = 0x40 + i.val ∧ s.key[i].specified = false) ∧
      (∃ i : Fin 32, (0x6F : Addr).toNat = 0x50 + i.val ∧ s.pt[i].specified = false) ∧
      (∃ i : Fin 16, (0x7F : Addr).toNat = 0x70 + i.val ∧ s.prefixReg[i].specified = false) ∧
      (0x80 ≤ (0x87 : Addr).toNat ∧ (0x87 : Addr).toNat < 0x88 ∧ s.cnt.specified = false) ∧
      (0x88 ≤ (0x88 : Addr).toNat ∧ (0x88 : Addr).toNat < 0x90 ∧ s.floor.specified = false) ∧
      (0x90 ≤ (0x94 : Addr).toNat ∧ (0x94 : Addr).toNat < 0x95 ∧ s.lfsr.specified = false) := by decide +kernel
theorem test_witness_HostWriteStoresInIdle : State.reset.state = .idle := rfl
theorem test_witness_HostWriteIsDroppedOutsideIdle :
    ((cdSearch .paused ct1 key1 5 3).state ≠ .idle ∧ WritableAddr 0x05 ∧ WritableAddr 0x06 ∧ WritableAddr 0x10 ∧
      WritableAddr 0x4F) ∧
    (((0x01 : Addr) ≠ 0x00 ∧ ¬ WritableAddr 0x01) ∧ ¬ WritableAddr 0x04 ∧ ¬ WritableAddr 0x07 ∧ ¬ WritableAddr 0x0F ∧
      ¬ WritableAddr 0x50 ∧ ¬ WritableAddr 0xA7 ∧ ¬ WritableAddr 0xFF) := by
  unfold WritableAddr; decide
/-- Each range at its ends: reserved and read-only addresses do not overlap. -/
theorem test_witness_ReservedAndReadOnlyAddressesAreInert :
    (∀ n : Fin 256, ReservedAddr (BitVec.ofNat 8 n.val) ↔
      (0x07 ≤ n.val ∧ n.val ≤ 0x0F) ∨ (0x95 ≤ n.val ∧ n.val ≤ 0x97) ∨ 0xA8 ≤ n.val) ∧
    (0x01 ≤ (0x01 : Addr).toNat ∧ (0x04 : Addr).toNat ≤ 0x04) ∧ (0x50 ≤ (0x50 : Addr).toNat ∧ (0x94 : Addr).toNat ≤ 0x94) ∧
      (0x98 ≤ (0x98 : Addr).toNat ∧ (0xA7 : Addr).toNat ≤ 0xA7) := by
  unfold ReservedAddr; decide +kernel
theorem test_witness_HostReadAfterWrite : State.reset.state = .idle ∧ WritableAddr 0x05 ∧ WritableAddr 0x4F := by
  unfold WritableAddr; decide
theorem test_witness_CommandWritesFollowTheLegalityTable :
    legality .initCd .paused = .illegal ∧ legality .stop .found = .noOp ∧ legality .clear .error = .executes ∧
      0x08 ≤ (0x08 : Byte).toNat ∧ 0x08 ≤ (0xFF : Byte).toNat := by decide
theorem test_witness_RunCommandStartsTheEngine :
    (cdSearch .paused ct1 key1 5 3).state = .paused ∧ (cdSearch .run ct1 key1 5 3).state = .run ∧
      (State.reset.state ≠ .paused ∧ State.reset.state ≠ .run) := by decide
theorem test_witness_StopCommandPausesTheEngine :
    (cdSearch .run ct1 key1 5 3).state = .run ∧ (cdSearch .found ct1 key1 5 3).state ≠ .run := by decide
/-- Each condition of R191 at its boundary. -/
theorem test_witness_InvalidInputLengthIsTaken :
    let at_ (len blks : BitVec 8) : State := { State.reset with ivlen := len, ctblks := blks }
    (at_ 17 2).state = .idle ∧ 16 < (at_ 17 2).ivlen.toNat ∧ 11 < (at_ 12 2).ivlen.toNat ∧ (at_ 0 1).ctblks.toNat < 2 ∧
      ¬ (16 < (at_ 16 2).ivlen.toNat ∨ (at_ 16 2).ctblks.toNat < 2) ∧
      ¬ (11 < (at_ 11 2).ivlen.toNat ∨ (at_ 11 2).ctblks.toNat < 2) ∧ ¬ (at_ 0 2).ctblks.toNat < 2 := by decide
/-- V-CI7 and V-CI8: 15 and 16 known bytes. -/
theorem test_witness_InitCdSetsUpTheCountdown :
    let ok (s : State) (c f : BitVec 64) : Prop :=
      s.state = .idle ∧ s.ivlen.toNat ≤ 16 ∧ 2 ≤ s.ctblks.toNat ∧ SpecifiedOn s.iv 0 s.ivlen.toNat ∧
        (∀ j : Fin 8, c.extractLsb' (56 - 8 * j.val) 8 =
          if 8 + j.val < s.ivlen.toNat then (s.iv[8 + j.val]'(by omega)).value else 0xFF) ∧
        ∀ j : Fin 8, f.extractLsb' (56 - 8 * j.val) 8 =
          if 8 + j.val < s.ivlen.toNat then (s.iv[8 + j.val]'(by omega)).value else 0x00
    (ok (loaded 15 key1 ct1 0) 0xABF7158809CF4FFF 0xABF7158809CF4F00 ∧
      ok (loaded 16 key1 ct1 0) 0xABF7158809CF4F3C 0xABF7158809CF4F3C) ∧
    (cdSearch .paused ct1 key1 5 3).state ≠ .idle ∧
    ((loaded 17 key1 ct1 0).state = .idle ∧ 16 < (loaded 17 key1 ct1 0).ivlen.toNat) := by
  unfold SpecifiedOn; decide +kernel
theorem test_witness_InitLfSetsUpTheLfsr :
    let s := loaded 11 key2 ct2 0
    (s.state = .idle ∧ s.ivlen.toNat ≤ 11 ∧ 2 ≤ s.ctblks.toNat ∧ SpecifiedOn s.iv 0 s.ivlen.toNat) ∧
    (lfSearch .paused ct2 key2 1).state ≠ .idle ∧
    ((loaded 12 key1 ct1 0).state = .idle ∧ 11 < (loaded 12 key1 ct1 0).ivlen.toNat) := by
  unfold SpecifiedOn; decide +kernel
theorem test_witness_InitOverUnspecifiedIvGivesUnspecifiedRegisters :
    let s (len : BitVec 8) : State := { State.reset with ivlen := len, ctblks := 2 }
    ((s 11).state = .idle ∧ 2 ≤ (s 11).ctblks.toNat ∧ ¬ SpecifiedOn (s 11).iv 0 (s 11).ivlen.toNat ∧
      (s 11).ivlen.toNat ≤ 16 ∧ (s 11).ivlen.toNat ≤ 11) ∧
      (¬ SpecifiedOn (s 16).iv 0 (s 16).ivlen.toNat ∧ (s 16).ivlen.toNat ≤ 16) := by
  unfold SpecifiedOn; decide +kernel
/-- Two states that differ in `IV[15]` alone, and both commands complete. -/
theorem test_witness_InitDoesNotReadBeyondIvlen :
    let s := loaded 11 key1 ct1 0
    (∀ i : Fin 16, i.val < s.ivlen.toNat → (s.iv.set 15 (Data.bot 8))[i] = s.iv[i]) ∧
      nextIs (exec .initCd s) (fun _ => true) = true ∧ nextIs (exec .initLf s) (fun _ => true) = true := by decide +kernel
theorem test_witness_StepCommandPerformsTheSelectedStep :
    ((cdSearch .paused ct1 key1 5 3).state = .paused ∧ (cdSearch .paused ct1 key1 5 3).mode = .countdown) ∧
      ((lfSearch .paused ct2 key2 1).state = .paused ∧ (lfSearch .paused ct2 key2 1).mode = .lfsr) ∧
      State.reset.state ≠ .paused ∧
      (({ State.reset with state := .paused } : State).state = .paused ∧
        ({ State.reset with state := .paused } : State).mode = .none) := by decide
/-- A state in which everything is written; one outside IDLE; one with no block declared. -/
theorem test_witness_TestCallsTheOracleOnce :
    ((loaded 0 0 ct0 key0).state = .idle ∧ 2 ≤ (loaded 0 0 ct0 key0).ctblks.toNat ∧ TestSpecified (loaded 0 0 ct0 key0)) ∧
      (cdSearch .run ct1 key1 5 3).state ≠ .idle ∧ (State.reset.state = .idle ∧ State.reset.ctblks.toNat < 2) :=
  ⟨⟨rfl, by decide, specifiedOn_known _ _ _, specifiedOn_known _ _ _⟩, by decide, rfl, by decide⟩
/-- The start of V-CD2 (the candidate is accepted), of V-CD3 (rejected at the floor) and of V-CD1 (rejected above it). -/
theorem test_witness_CdStepTestsOneCandidate (cnt floor : BitVec 64) : CdSpecified (cdSearch .run ct1 key1 cnt floor) :=
  ⟨specifiedOn_known _ _ _, rfl, rfl, specifiedOn_known _ _ _⟩
/-- The start of each step of V-LF4. -/
theorem test_witness_LfStepAdvancesThenTests (r : BitVec 40) : LfSpecified (lfSearch .run ct2 key2 r) :=
  ⟨specifiedOn_known _ _ _, rfl, specifiedOn_known _ _ _⟩
/-- R30(b), R222: everything is written but the last byte of `CT`. -/
theorem test_witness_StepsOverUnspecifiedBytes :
    let hole (s : State) : State := { s with ct := s.ct.set 31 (Data.bot 8) }
    ((loaded 0 0 ct0 key0).state = .idle ∧ 2 ≤ (loaded 0 0 ct0 key0).ctblks.toNat ∧
        ¬ TestSpecified (hole (loaded 0 0 ct0 key0))) ∧
      ¬ CdSpecified (hole (cdSearch .run ct1 key1 5 3)) ∧ ¬ LfSpecified (hole (lfSearch .run ct2 key2 1)) := by
  refine ⟨⟨rfl, by decide, fun h => ?_⟩, fun h => ?_, fun h => ?_⟩
  · exact absurd (h.2 31 (by decide) (by decide)) (by decide)
  · exact absurd (h.2.2.2 31 (by decide) (by decide)) (by decide)
  · exact absurd (h.2.2 31 (by decide) (by decide)) (by decide)
/-- R30(b): in that state a step leaves `KEY` and the counter or register unspecified, whatever its verdict. -/
theorem test_steps_over_an_unwritten_byte :
    let hole (s : State) : State := { s with ct := s.ct.set 31 (Data.bot 8) }
    nextIs (exec .cdStep (hole (cdSearch .run ct1 key1 5 3)))
        (fun t => t.key == botBytes 16 && t.cnt == Data.bot 64 && t.steps == 1) ∧
      nextIs (exec .lfStep (hole (lfSearch .run ct2 key2 1)))
        (fun t => t.key == botBytes 16 && t.lfsr == Data.bot 40 && t.steps == 1) := by decide +kernel
/-- An event that clears the counters and one that leaves them. -/
theorem test_witness_CountersShowTheShortCircuit :
    nextIs (step { cdSearch .run ct1 key1 5 3 with steps := 9, decs := 9, schedule := cmd .clear })
        (fun t => t.steps == 0 && t.decs == 0) = true ∧
      nextIs (step { cdSearch .run ct1 key1 5 3 with steps := 9, decs := 9, schedule := cmd .stop })
        (fun t => t.steps == 9 && t.decs == 9) = true := by decide +kernel
/-- R173: 0x53 and 0xCA are inverse, and `SBOX[0x53]` is 0xED. -/
theorem test_witness_SboxIsTheAffineInverse : gmul 0x53 0xCA = 1 ∧ sbox 0x53 = 0xED ∧ sbox 0 = 0x63 := by decide +kernel
theorem test_witness_LfsrNextIsABijectionFixingOnlyAllOnes : lfsrNext 0xFFFFFFFFFF#40 = 0xFFFFFFFFFF#40 := by decide +kernel
theorem test_witness_LfsrHasMaximalLength :
    (0 < 1 ∧ 1 < 2 ^ 40 - 1) ∧ (0x0000000000#40 ≠ 0xFFFFFFFFFF#40) := by decide
theorem test_witness_FloorAndCeilingSpanTheUnknownBytes : (0 : Nat) ≤ 16 ∧ 8 ≤ 16 ∧ 9 ≤ 16 ∧ 16 ≤ 16 := by decide
/-- V-CD3: the key one above `K1` is rejected. V-CD2: `K1` is accepted. V-CD5: the zero key is rejected. V-LF4: the first
candidate of an LFSR search is rejected. Each by the bytes of its candidate. -/
theorem rejects_above_key1 {s : State} (h : s.ct = (loaded 16 0 ct1 0).ct) : Rejects s (bytesOf 16 (key1 + 1)) := by
  unfold Rejects
  rw [row_congr h]
  decide +kernel
theorem accepts_key1 {s : State} (h : s.ct = (loaded 16 0 ct1 0).ct) : ¬ Rejects s (bytesOf 16 key1) := by
  unfold Rejects
  rw [row_congr h]
  decide +kernel
theorem rejects_zero_key : Rejects (cdSearch .run ct1 0 0 0) (bytesOf 16 0) := by unfold Rejects; decide +kernel
theorem rejects_seventh_suffix :
    Rejects (lfSearch .run ct2 key2 0xF800000000) (bytesOf 16 0x2B7E151628AED2A6ABF715FC00000000) := by
  unfold Rejects; decide +kernel
theorem accepts_key2 : ¬ Rejects (lfSearch .run ct2 key2 0xF800000000) (bytesOf 16 key2) := by
  unfold Rejects; decide +kernel
/-- Turns of the engine at the head of the round are the events that come next. -/
theorem engineTurnsNext_engine : ∀ (n : Nat) (s : State) {rest : List Event}, s.schedule = engine n ++ rest → EngineTurnsNext n s
  | 0, _, _, _ => trivial
  | n + 1, s, rest, h => by
    have h' : s.schedule = .engineTurn :: (engine n ++ rest) := h
    exact ⟨by simp [State.nextEvent, h'], engineTurnsNext_engine n _ (rest := rest) (by simp [State.advance, h'])⟩
/-- A search for `K1` whose next candidate is one above it: rejected, then accepted. -/
theorem test_witness_CountdownFindsTheHighestAcceptedSuffix :
    let s : State :=
      { cdSearch .run ct1 key1 0xABF7158809CF4F3D 0xABF7158809CF4F3C with schedule := engine 2 ++ cmd .stop }
    EngineTurnsNext (1 + 1) s ∧ s.state = .run ∧ s.mode = .countdown ∧ SpecifiedOn s.ct 0 32 ∧ SpecifiedOn s.prefixReg 0 8 ∧
      s.cnt = ⟨0xABF7158809CF4F3D, true⟩ ∧ s.floor = ⟨0xABF7158809CF4F3C, true⟩ ∧
      0xABF7158809CF4F3C#64 ≤ 0xABF7158809CF4F3D#64 ∧
      1 ≤ (0xABF7158809CF4F3D#64).toNat - (0xABF7158809CF4F3C#64).toNat ∧
      (∀ j : Nat, j < 1 → Rejects s (cdKey { s with cnt := ⟨0xABF7158809CF4F3D#64 - BitVec.ofNat 64 j, true⟩ })) ∧
      ¬ Rejects s (cdKey { s with cnt := ⟨0xABF7158809CF4F3D#64 - BitVec.ofNat 64 1, true⟩ }) := by
  refine ⟨engineTurnsNext_engine 2 _ rfl, rfl, rfl, specifiedOn_known _ _ _, specifiedOn_known _ _ _, rfl, rfl, by decide,
    by decide, fun j hj => ?_, ?_⟩
  · obtain rfl : j = 0 := by omega
    rw [show cdKey _ = bytesOf 16 (key1 + 1) by decide +kernel]
    exact rejects_above_key1 rfl
  · rw [show cdKey _ = bytesOf 16 key1 by decide +kernel]
    exact accepts_key1 rfl
/-- The same search: one candidate is rejected before the floor. -/
theorem test_witness_CountdownTestsInDescendingOrder :
    let s : State :=
      { cdSearch .run ct1 key1 0xABF7158809CF4F3D 0xABF7158809CF4F3C with schedule := engine 2 ++ cmd .stop }
    EngineTurnsNext 1 s ∧ s.state = .run ∧ s.mode = .countdown ∧ SpecifiedOn s.ct 0 32 ∧ SpecifiedOn s.prefixReg 0 8 ∧
      s.cnt = ⟨0xABF7158809CF4F3D, true⟩ ∧ s.floor = ⟨0xABF7158809CF4F3C, true⟩ ∧
      0xABF7158809CF4F3C#64 ≤ 0xABF7158809CF4F3D#64 ∧
      1 ≤ (0xABF7158809CF4F3D#64).toNat - (0xABF7158809CF4F3C#64).toNat ∧
      (∀ k : Nat, k < 1 → Rejects s (cdKey { s with cnt := ⟨0xABF7158809CF4F3D#64 - BitVec.ofNat 64 k, true⟩ })) := by
  obtain ⟨_, h2, h3, h4, h5, h6, h7, h8, h9, h10, _⟩ := test_witness_CountdownFindsTheHighestAcceptedSuffix
  exact ⟨engineTurnsNext_engine 1 _ rfl, h2, h3, h4, h5, h6, h7, h8, h9, h10⟩
/-- V-CD5: the one candidate is rejected and the floor is 0; the turn is the one that ends the round. -/
theorem test_witness_CountdownEndsExhausted :
    let s := cdSearch .run ct1 0 0 0
    EngineTurnsNext ((0#64).toNat - (0#64).toNat + 1) s ∧ s.state = .run ∧ s.mode = .countdown ∧ SpecifiedOn s.ct 0 32 ∧ SpecifiedOn s.prefixReg 0 8 ∧
      s.cnt = ⟨0, true⟩ ∧ s.floor = ⟨0, true⟩ ∧ 0#64 ≤ 0#64 ∧
      (∀ k : Nat, k ≤ (0#64).toNat - (0#64).toNat →
        Rejects s (cdKey { s with cnt := ⟨0#64 - BitVec.ofNat 64 k, true⟩ })) := by
  refine ⟨⟨rfl, trivial⟩, rfl, rfl, specifiedOn_known _ _ _, specifiedOn_known _ _ _, rfl, rfl, by decide, fun k hk => ?_⟩
  obtain rfl : k = 0 := by simpa using hk
  rw [show cdKey _ = bytesOf 16 0 by decide +kernel]
  exact rejects_zero_key
/-- V-LF4: from the register before its seventh step, one candidate is rejected and the next accepted. -/
theorem test_witness_LfsrSearchEndsAtTheFirstAcceptedCandidate :
    let s : State := { lfSearch .run ct2 key2 0xF800000000 with schedule := engine 2 ++ cmd .stop }
    EngineTurnsNext (1 + 1) s ∧ s.state = .run ∧ s.mode = .lfsr ∧ SpecifiedOn s.ct 0 32 ∧ SpecifiedOn s.prefixReg 0 11 ∧
      s.lfsr = ⟨0xF800000000, true⟩ ∧
      (∀ j : Nat, j < 1 → Rejects s (lfKey s (lfsrNext^[j + 1] 0xF800000000#40))) ∧
      ¬ Rejects s (lfKey s (lfsrNext^[1 + 1] 0xF800000000#40)) := by
  refine ⟨engineTurnsNext_engine 2 _ rfl, rfl, rfl, specifiedOn_known _ _ _, specifiedOn_known _ _ _, rfl, fun j hj => ?_, ?_⟩
  · obtain rfl : j = 0 := by omega
    rw [show lfKey _ _ = bytesOf 16 0x2B7E151628AED2A6ABF715FC00000000 by decide +kernel]
    exact rejects_seventh_suffix
  · rw [show lfKey _ _ = bytesOf 16 key2 by decide +kernel]
    exact accepts_key2
/-- The same search: one candidate is rejected. -/
theorem test_witness_LfsrSearchFollowsTheSequence :
    let s : State := { lfSearch .run ct2 key2 0xF800000000 with schedule := engine 2 ++ cmd .stop }
    EngineTurnsNext 1 s ∧ s.state = .run ∧ s.mode = .lfsr ∧ SpecifiedOn s.ct 0 32 ∧ SpecifiedOn s.prefixReg 0 11 ∧
      s.lfsr = ⟨0xF800000000, true⟩ ∧
      (∀ k : Nat, k < 1 → Rejects s (lfKey s (lfsrNext^[k + 1] 0xF800000000#40))) := by
  obtain ⟨_, h2, h3, h4, h5, h6, h7, _⟩ := test_witness_LfsrSearchEndsAtTheFirstAcceptedCandidate
  exact ⟨engineTurnsNext_engine 1 _ rfl, h2, h3, h4, h5, h6, h7⟩
theorem test_witness_SteppingEqualsRunningAndStopping :
    ((cdSearch .paused ct1 key1 5 3).state = .paused ∧ (cdSearch .paused ct1 key1 5 3).mode ≠ .none) ∧
      ((lfSearch .paused ct2 key2 1).state = .paused ∧ (lfSearch .paused ct2 key2 1).mode ≠ .none) := by decide
/-- A countdown in RUN in the middle of its range meets the invariant. -/
theorem inv_of_running_countdown : Inv (cdSearch .run ct1 (key1 ||| 0xFF) 0xABF7158809CF4FFF 0xABF7158809CF4FFF) where
  canonical := by unfold CanonicalBots CanonicalData; decide +kernel
  control := by unfold ControlInv; decide
  result := ⟨fun h => (by cases h), fun h => (by cases h)⟩
  countdown := by
    intro _
    refine ⟨fun _ _ => by decide +kernel, fun _ _ => ⟨fun _ => by decide, fun _ _ => by decide +kernel, fun h => (by cases h)⟩, fun _ h => (by cases h)⟩
  lfsr := fun h => (by cases h)
theorem test_witness_EveryStepKeepsTheInvariant : ∃ s t : State, Inv s ∧ s.state = .run ∧ step s = .next t :=
  ⟨_, _, inv_of_running_countdown, rfl, rfl⟩
theorem test_witness_EveryRoundEndsWithATurnOfTheEngine : ∃ s : State, Inv s ∧ s.state = .run :=
  ⟨_, inv_of_running_countdown, rfl⟩
/-- The host polls `STATE` in RUN; a data write, which is dropped. -/
theorem test_witness_TransactionsInRunLeaveTheSearchAlone :
    let s (w : HostWord) : State := { cdSearch .run ct1 key1 5 3 with schedule := [.transaction w, .engineTurn] }
    (s 0).state = .run ∧ (s (readWord 0x01)).schedule = .transaction (readWord 0x01) :: [.engineTurn] ∧
      (decodeHt (readWord 0x01) ≠ .hwr 0x00 0x05 ∧ decodeHt (readWord 0x01) ≠ .hwr 0x00 0x07) ∧
      (decodeHt (writeWord 0x05 0x05) ≠ .hwr 0x00 0x05 ∧ decodeHt (writeWord 0x05 0x05) ≠ .hwr 0x00 0x07) := by decide
/-- The host polls `STATE` between two steps, in either mode. -/
theorem test_witness_InterleavingDoesNotChangeTheSearch :
    ((cdSearch .run ct1 key1 5 3).state = .run ∧ (cdSearch .run ct1 key1 5 3).mode = .countdown ∧
      CdSpecified (cdSearch .run ct1 key1 5 3)) ∧
    ((lfSearch .run ct2 key2 1).state = .run ∧ (lfSearch .run ct2 key2 1).mode = .lfsr ∧ LfSpecified (lfSearch .run ct2 key2 1)) ∧
    ∀ e ∈ [.engineTurn, .transaction (readWord 0x01), .engineTurn], KeepsSearching e := by
  refine ⟨⟨rfl, rfl, test_witness_CdStepTestsOneCandidate 5 3⟩, ⟨rfl, rfl, test_witness_LfStepAdvancesThenTests 1⟩, ?_⟩
  intro e he
  simp only [List.mem_cons, List.not_mem_nil, or_false] at he
  rcases he with rfl | rfl | rfl
  · trivial
  · exact ⟨by decide, by decide⟩
  · trivial
theorem test_witness_TheMachineAlwaysGoesOn : ∃ s : State, Inv s ∧ s.state = .run :=
  ⟨_, inv_of_running_countdown, rfl⟩
theorem test_witness_InputsAreFrozenDuringASearch :
    let s : State := { cdSearch .paused ct1 key1 5 3 with schedule := wr 0x10 0xAA }
    searchExists s.state = true ∧ ¬ ResetNext s ∧ nextIs (step s) (fun _ => true) = true := by
  refine ⟨by decide, ?_, by decide +kernel⟩
  rintro ⟨_, h⟩; cases h
theorem test_witness_StateMovesOnlyByTheTransitionTable :
    ((∀ a v, Instr.run ≠ .hwr a v) ∧ nextIs (exec .run (lfSearch .paused ct2 key2 1)) (fun _ => true) = true) ∧
      (∃ t, exec .cdStep (cdSearch .run ct1 key1 5 3) = .next t) ∧ (∃ t, exec .lfStep (lfSearch .paused ct2 key2 1) = .next t) ∧
      nextIs (exec (.hwr 0x00 (opcode .run)) (lfSearch .paused ct2 key2 1)) (fun _ => true) = true ∧
      ((0x05 : Addr) ≠ 0x00 ∧ nextIs (exec (.hwr 0x05 0x00) State.reset) (fun _ => true) = true) ∧
      (0x08 ≤ (0x08 : Byte).toNat ∧ nextIs (exec (.hwr 0x00 0x08) State.reset) (fun _ => true) = true) ∧
      (ResetNext { State.reset with schedule := [.rst] } ∧ ∃ t, step { State.reset with schedule := [.rst] } = .next t) ∧
      ((cdSearch .run ct1 key1 5 3).schedule = [] ∧ ∃ t, step (cdSearch .run ct1 key1 5 3) = .next t) :=
  ⟨⟨fun _ _ h => (by cases h), by decide +kernel⟩, ⟨_, rfl⟩, ⟨_, rfl⟩, by decide +kernel, by decide, by decide,
    ⟨⟨_, rfl⟩, _, rfl⟩, rfl, _, rfl⟩
/-- FOUND with nothing due, with `CLEAR` next and with a reset next. -/
theorem test_witness_TerminalStatesEndOnlyByClearOrReset :
    let s (l : List Event) : State := { cdSearch .found ct1 key1 5 3 with schedule := l }
    (s []).state = .found ∧ nextIs (step (s [])) (fun t => t.state == .found) = true ∧
      ClearNext (s (cmd .clear)) ∧ nextIs (step (s (cmd .clear))) (fun t => t.state == .idle) = true ∧
      ResetNext (s [.rst]) ∧ nextIs (step (s [.rst])) (fun t => t.state == .idle) = true :=
  ⟨rfl, by decide +kernel, ⟨_, _, rfl, by decide⟩, by decide +kernel, ⟨_, rfl⟩, by decide +kernel⟩
theorem test_witness_IllegalFlagsAreSticky :
    let s : State := { State.reset with flags := { acc := false, b1dec := false, illcmd := true, illwr := true }, schedule := cmd .stop }
    nextIs (step s) (fun _ => true) = true ∧ ¬ ClearNext s ∧ ¬ ResetNext s ∧ s.flags.illcmd = true ∧ s.flags.illwr = true := by
  refine ⟨by decide, ?_, ?_, rfl, rfl⟩
  · rintro ⟨w, r, h, h'⟩
    injection h with h _
    injection h with h
    rw [← h] at h'
    exact absurd h' (by decide)
  · rintro ⟨_, h⟩; cases h

end Sys2Proof.Tests
end

section
/-! SUPPORT. What a step of the machine can do, said once as a case list (`Effect`), and the frames of the enumerator steps. -/

namespace Sys2Proof.Proofs

open Sys2Proof Sys2Proof.Machine Sys2Proof.Safety

/-! ### What the enumerator steps leave alone -/

@[simp] theorem countdownStep_iv (s : State) : s.countdownStep.iv = s.iv := by rw [s.countdownStep_frame]
@[simp] theorem countdownStep_ivlen (s : State) : s.countdownStep.ivlen = s.ivlen := by rw [s.countdownStep_frame]
@[simp] theorem countdownStep_ct (s : State) : s.countdownStep.ct = s.ct := by rw [s.countdownStep_frame]
@[simp] theorem countdownStep_ctblks (s : State) : s.countdownStep.ctblks = s.ctblks := by rw [s.countdownStep_frame]
@[simp] theorem countdownStep_prefixReg (s : State) : s.countdownStep.prefixReg = s.prefixReg := by rw [s.countdownStep_frame]
@[simp] theorem countdownStep_floor (s : State) : s.countdownStep.floor = s.floor := by rw [s.countdownStep_frame]
@[simp] theorem countdownStep_lfsr (s : State) : s.countdownStep.lfsr = s.lfsr := by rw [s.countdownStep_frame]
@[simp] theorem countdownStep_cause (s : State) : s.countdownStep.cause = s.cause := by rw [s.countdownStep_frame]
@[simp] theorem countdownStep_mode (s : State) : s.countdownStep.mode = s.mode := by rw [s.countdownStep_frame]

@[simp] theorem lfsrStep_iv (s : State) : s.lfsrStep.iv = s.iv := by rw [s.lfsrStep_frame]
@[simp] theorem lfsrStep_ivlen (s : State) : s.lfsrStep.ivlen = s.ivlen := by rw [s.lfsrStep_frame]
@[simp] theorem lfsrStep_ct (s : State) : s.lfsrStep.ct = s.ct := by rw [s.lfsrStep_frame]
@[simp] theorem lfsrStep_ctblks (s : State) : s.lfsrStep.ctblks = s.ctblks := by rw [s.lfsrStep_frame]
@[simp] theorem lfsrStep_prefixReg (s : State) : s.lfsrStep.prefixReg = s.prefixReg := by rw [s.lfsrStep_frame]
@[simp] theorem lfsrStep_cnt (s : State) : s.lfsrStep.cnt = s.cnt := by rw [s.lfsrStep_frame]
@[simp] theorem lfsrStep_floor (s : State) : s.lfsrStep.floor = s.floor := by rw [s.lfsrStep_frame]
@[simp] theorem lfsrStep_cause (s : State) : s.lfsrStep.cause = s.cause := by rw [s.lfsrStep_frame]
@[simp] theorem lfsrStep_mode (s : State) : s.lfsrStep.mode = s.mode := by rw [s.lfsrStep_frame]

/-! ### The case list -/

/-- What an event other than a reset or a `CLEAR` can make of the state `s`, each with the guard it needs. -/
inductive Effect (s : State) : State → Prop
  | unchanged : Effect s s
  | read (a : Addr) : Effect s (s.afterRead a)
  | dropCommand : Effect s s.dropCommand
  | dropWrite : Effect s s.dropWrite
  | store (l : Loc) (v : Byte) (idle : s.state = .idle) : Effect s (s.store l v)
  | raise (idle : s.state = .idle) : Effect s s.raiseInvalidInputLength
  | initCountdown (idle : s.state = .idle) (ok : s.inputsOk ivMax = true) : Effect s s.initCountdown
  | initLfsr (idle : s.state = .idle) (ok : s.inputsOk lfPrefix = true) : Effect s s.initLfsr
  | test (idle : s.state = .idle) : Effect s s.oracle
  | run (paused : s.state = .paused) : Effect s { s with state := .run }
  | stop (running : s.state = .run) : Effect s { s with state := .paused }
  | countdownStep (searching : s.state = .paused ∨ s.state = .run) (mode : s.mode = .countdown) : Effect s s.countdownStep
  | lfsrStep (searching : s.state = .paused ∨ s.state = .run) (mode : s.mode = .lfsr) : Effect s s.lfsrStep

/-- A data write stores in IDLE, is dropped, or does nothing. -/
theorem dataWrite_effect (s : State) (l : Loc) (v : Byte) : Effect s (s.dataWrite l v) := by
  rcases s.dataWrite_cases l v with ⟨_, idle, e⟩ | ⟨_, _, e⟩ | ⟨_, e⟩ <;> rw [e]
  · exact .store l v idle
  · exact .dropWrite
  · exact .unchanged

/-- A command is `CLEAR` or has one of the listed effects. -/
theorem command_effect {c : Command} {s t : State} (h : exec c.toInstr s = .next t) :
    (c = .clear ∧ t = s.clearControl) ∨ Effect s t := by
  have hi : ∀ a v, c.toInstr ≠ .hwr a v := by cases c <;> simp [Command.toInstr]
  have hcd : c.toInstr ≠ .cdStep := by cases c <;> simp [Command.toInstr]
  have hlf : c.toInstr ≠ .lfStep := by cases c <;> simp [Command.toInstr]
  rcases exec_cases hi h with ⟨a, _, rfl⟩ | rfl | rfl | ⟨_, idle, rfl⟩ | ⟨_, idle, ok, rfl⟩ | ⟨_, idle, ok, rfl⟩ |
    ⟨_, idle, rfl⟩ | ⟨_, paused, rfl⟩ | ⟨_, running, rfl⟩ | ⟨hc, rfl⟩ | ⟨hc, rfl⟩ | ⟨hc, rfl⟩
  · exact .inr (.read a)
  · exact .inr .unchanged
  · exact .inr .dropCommand
  · exact .inr (.raise idle)
  · exact .inr (.initCountdown idle ok)
  · exact .inr (.initLfsr idle ok)
  · exact .inr (.test idle)
  · exact .inr (.run paused)
  · exact .inr (.stop running)
  · exact .inl ⟨by cases c <;> simp [Command.toInstr] at hc ⊢, rfl⟩
  · obtain ⟨_, paused, mode⟩ := hc.resolve_left hcd
    exact .inr (.countdownStep (.inl paused) mode)
  · obtain ⟨_, paused, mode⟩ := hc.resolve_left hlf
    exact .inr (.lfsrStep (.inl paused) mode)

/-- The opcode of `CLEAR` is 0x07 (R63). -/
theorem decodeCommand_eq_clear {v : Byte} (h : decodeCommand v = .ok .clear) : v = 0x07 := by
  revert v; decide +kernel

/-- A host write is a `CLEAR` written to `CMD` or has one of the listed effects. -/
theorem hwr_effect {a : Addr} {v : Byte} {s t : State} (h : exec (.hwr a v) s = .next t) :
    (a = 0x00 ∧ v = 0x07 ∧ t = s.clearControl) ∨ Effect s t := by
  simp only [exec, execHwr] at h
  split at h
  next ha =>
    simp only [execCommandByte] at h
    split at h
    next c hd =>
      rw [execCommand_eq_exec] at h
      rcases command_effect h with ⟨rfl, ht⟩ | ht
      · exact .inl ⟨(locOf_eq_cmd_iff a).mp ha, decodeCommand_eq_clear hd, ht⟩
      · exact .inr ht
    next => injection h with h; subst h; exact .inr .dropCommand
  next => injection h with h; subst h; exact .inr (dataWrite_effect s _ v)

/-- An `HT` word is a read or a write (R66). -/
theorem decodeHt_cases (w : HostWord) : (∃ a, decodeHt w = .hrd a) ∨ ∃ a v, decodeHt w = .hwr a v := by
  unfold decodeHt
  split
  · exact .inr ⟨_, _, rfl⟩
  · exact .inl ⟨_, rfl⟩

/-- The next event heads the round when it is no turn of the engine. -/
theorem schedule_of_nextEvent {s : State} {e : Event} (h : s.nextEvent = e) (he : e ≠ .engineTurn) :
    ∃ rest, s.schedule = e :: rest := by
  unfold State.nextEvent at h
  split at h
  next => exact absurd h.symm he
  next e' rest hs => exact ⟨rest, h ▸ hs⟩

/-- Everything a step can do: a reset, a `CLEAR`, or one of the listed effects on the state with the event taken off. -/
theorem step_effect {s t : State} (h : step s = .next t) :
    (ResetNext s ∧ t = s.advance.applyReset) ∨ (ClearNext s ∧ t = s.advance.clearControl) ∨ Effect s.advance t := by
  rcases step_cases h with ⟨he, ht⟩ | ⟨_, _, rfl⟩ | ⟨_, running, mode, rfl⟩ | ⟨_, running, mode, rfl⟩ | ⟨w, he, hx⟩
  · exact .inl ⟨schedule_of_nextEvent he (by simp), ht⟩
  · exact .inr (.inr .unchanged)
  · exact .inr (.inr (.countdownStep (by simp [running]) (by simp [mode])))
  · exact .inr (.inr (.lfsrStep (by simp [running]) (by simp [mode])))
  · rcases decodeHt_cases w with ⟨a, hw⟩ | ⟨a, v, hw⟩ <;> rw [hw] at hx
    · simp only [exec, execHrd] at hx
      injection hx with hx
      exact .inr (.inr (hx ▸ .read a))
    · rcases hwr_effect hx with ⟨rfl, rfl, ht⟩ | ht
      · obtain ⟨rest, hs⟩ := schedule_of_nextEvent he (by simp)
        exact .inr (.inl ⟨⟨w, rest, hs, hw⟩, ht⟩)
      · exact .inr (.inr ht)

end Sys2Proof.Proofs
end

section
/-! SUPPORT. The facts about words, byte arrays and verdicts that the invariant rests on. -/

namespace Sys2Proof.Proofs

open Sys2Proof Sys2Proof.Machine Sys2Proof.Safety

/-! ### The bytes of a 64-bit value -/

/-- Two values whose bytes agree down to byte `k` agree in everything above byte `k` too. -/
theorem shiftRight_eq_of_bytes_eq {a b : BitVec 64} (k : Fin 8)
    (h : ∀ j : Fin 8, j ≤ k → a.extractLsb' (56 - 8 * j.val) 8 = b.extractLsb' (56 - 8 * j.val) 8) :
    a >>> (56 - 8 * k.val) = b >>> (56 - 8 * k.val) := by
  apply BitVec.eq_of_getLsbD_eq
  intro i _
  simp only [BitVec.getLsbD_ushiftRight]
  generalize hn : 56 - 8 * k.val + i = n
  by_cases hlt : n < 64
  · have hbyte := h ⟨7 - n / 8, by omega⟩ (by rw [Fin.le_def]; simp only; omega)
    have hbit := congrArg (fun x => x.getLsbD (n % 8)) hbyte
    simp only [BitVec.getLsbD_extractLsb'] at hbit
    simpa [show n % 8 < 8 by omega, show 56 - 8 * (7 - n / 8) + n % 8 = n by omega] using hbit
  · rw [BitVec.getLsbD_of_ge a n (by omega), BitVec.getLsbD_of_ge b n (by omega)]

/-- A value between two whose bytes agree down to byte `k` has their byte `k`. -/
theorem byte_eq_of_between {f d c : BitVec 64} (k : Fin 8) (hfd : f ≤ d) (hdc : d ≤ c)
    (h : ∀ j : Fin 8, j ≤ k → f.extractLsb' (56 - 8 * j.val) 8 = c.extractLsb' (56 - 8 * j.val) 8) :
    d.extractLsb' (56 - 8 * k.val) 8 = c.extractLsb' (56 - 8 * k.val) 8 := by
  have hfc := congrArg BitVec.toNat (shiftRight_eq_of_bytes_eq k h)
  have hlow := Nat.div_le_div_right (c := 2 ^ (56 - 8 * k.val)) (BitVec.le_def.mp hfd)
  have hhigh := Nat.div_le_div_right (c := 2 ^ (56 - 8 * k.val)) (BitVec.le_def.mp hdc)
  rw [BitVec.toNat_ushiftRight, BitVec.toNat_ushiftRight, Nat.shiftRight_eq_div_pow, Nat.shiftRight_eq_div_pow] at hfc
  apply BitVec.eq_of_toNat_eq
  rw [BitVec.extractLsb'_toNat, BitVec.extractLsb'_toNat, Nat.shiftRight_eq_div_pow, Nat.shiftRight_eq_div_pow]
  congr 1
  omega

/-- Counting down from above the floor stays at or above it, without wrapping around (R105). -/
theorem floor_le_sub_one {f c : BitVec 64} (hfc : f ≤ c) (hne : c ≠ f) : f ≤ c - 1 ∧ c - 1 ≤ c := by
  have : c.toNat ≠ f.toNat := fun e => hne (BitVec.eq_of_toNat_eq e)
  bv_omega

/-- Counting down from above the floor keeps the bytes that floor and counter share with `prefixReg` (R31(b)). -/
theorem sub_one_keeps_known_bytes {f c : BitVec 64} {n : Nat} {p : Fin 8 → Byte} (hfc : f ≤ c) (hne : c ≠ f)
    (hf : ∀ j : Fin 8, 8 + j.val < n → f.extractLsb' (56 - 8 * j.val) 8 = p j)
    (hc : ∀ j : Fin 8, 8 + j.val < n → c.extractLsb' (56 - 8 * j.val) 8 = p j) (j : Fin 8) (hj : 8 + j.val < n) :
    (c - 1).extractLsb' (56 - 8 * j.val) 8 = p j := by
  obtain ⟨hlow, hhigh⟩ := floor_le_sub_one hfc hne
  refine (byte_eq_of_between j hlow hhigh fun i hi => ?_).trans (hc j hj)
  have hi' : 8 + i.val < n := by rw [Fin.le_def] at hi; omega
  rw [hf i hi', hc i hi']

/-- `unbe64` is monotone byte by byte. -/
theorem unbe64_le_unbe64 {a b : Bytes 8} (h : ∀ j : Fin 8, a[j].toNat ≤ b[j].toNat) : unbe64 a ≤ unbe64 b := by
  have h0 := h 0; have h1 := h 1; have h2 := h 2; have h3 := h 3
  have h4 := h 4; have h5 := h 5; have h6 := h 6; have h7 := h 7
  simp only [Fin.getElem_fin, Fin.isValue, Fin.coe_ofNat_eq_mod, Nat.reduceMod] at h0 h1 h2 h3 h4 h5 h6 h7
  rw [BitVec.le_def, unbe64_toNat, unbe64_toNat]
  omega

/-! ### The countdown range that `INIT_CD` writes -/

/-- Byte `j` of `IV[8..16)` filled up. -/
theorem ivSuffix_getElem (iv : Bytes 16) (len : Nat) (missing : Byte) (j : Fin 8) :
    (ivSuffix iv len missing)[j] = if 8 + j.val < len then iv[8 + j.val] else missing := by
  simp [ivSuffix]

/-- Byte `i` of what `prefixReg` becomes (R100). -/
theorem mkPrefix_getElem (iv : Bytes 16) (len i : Nat) (hi : i < 16) :
    (mkPrefix iv len)[i] = if i < len then iv[i] else fill := by
  simp [mkPrefix]

/-- The floor is not above the ceiling (R101, R102). -/
theorem floorVal_le_ceilingVal (iv : Bytes 16) (len : Nat) : floorVal iv len ≤ ceilingVal iv len := by
  refine unbe64_le_unbe64 fun j => ?_
  rw [ivSuffix_getElem, ivSuffix_getElem]
  split <;> simp [floorFill]

/-- The ceiling is the last eight bytes of what `prefixReg` becomes (R31(b)). -/
theorem ceilingVal_eq_unbe64_mkPrefix (iv : Bytes 16) (len : Nat) :
    ceilingVal iv len = unbe64 (Vector.ofFn fun j : Fin 8 => (mkPrefix iv len)[8 + j.val]) := by
  unfold ceilingVal ivSuffix
  simp only [mkPrefix_getElem]

/-- A known byte of floor or ceiling is that of `prefixReg`. -/
theorem unbe64_ivSuffix_byte (iv : Bytes 16) {len : Nat} (missing : Byte) (j : Fin 8) (hj : 8 + j.val < len) :
    (unbe64 (ivSuffix iv len missing)).extractLsb' (56 - 8 * j.val) 8 = (mkPrefix iv len)[8 + j.val] := by
  rw [unbe64_byte, ivSuffix_getElem, mkPrefix_getElem, if_pos hj, if_pos hj]

/-! ### The shift register -/

/-- Bit `i` of `NEXT(x)` is bit `i + 1` of `x`, the feedback bit at the top (R121). -/
theorem lfsrNext_getLsbD (x : BitVec 40) (i : Nat) (hi : i < 40) :
    (lfsrNext x).getLsbD i = if i < 39 then x.getLsbD (i + 1) else lfsrFeedback x := by
  unfold lfsrNext
  by_cases h : i < 39
  · simp [h, Nat.add_comm]
  · obtain rfl : i = 39 := by omega
    simp

/-- `NEXT` reaches the lock-up value from the lock-up value only (R126). -/
theorem eq_allOnes_of_lfsrNext {x : BitVec 40} (h : lfsrNext x = 0xFFFFFFFFFF#40) : x = 0xFFFFFFFFFF#40 := by
  have hones : (0xFFFFFFFFFF#40) = BitVec.allOnes 40 := by decide
  rw [hones] at h ⊢
  have hnext : ∀ i < 40, (lfsrNext x).getLsbD i = true := fun i hi => by
    rw [h, BitVec.getLsbD_allOnes, decide_eq_true hi]
  have hbit : ∀ i, 0 < i → i < 40 → x.getLsbD i = true := by
    intro i hpos hi
    have hprev := hnext (i - 1) (by omega)
    rwa [lfsrNext_getLsbD x _ (by omega), if_pos (by omega), Nat.sub_add_cancel hpos] at hprev
  have hbit0 : x.getLsbD 0 = true := by
    have hfb := hnext 39 (by decide)
    rw [lfsrNext_getLsbD x _ (by decide), if_neg (by decide), lfsrFeedback, hbit 2 (by decide) (by decide),
      hbit 19 (by decide) (by decide), hbit 21 (by decide) (by decide)] at hfb
    simpa using hfb
  apply BitVec.eq_of_getLsbD_eq
  intro i hi
  rw [BitVec.getLsbD_allOnes, decide_eq_true hi]
  rcases Nat.eq_zero_or_pos i with rfl | hpos
  · exact hbit0
  · exact hbit i hpos hi

/-! ### The one form of `⊥` -/

theorem canonical_known (v : BitVec w) : CanonicalData (Data.known v) := nofun

theorem canonical_bot (w : Nat) : CanonicalData (Data.bot w) := fun _ => rfl

theorem canonical_wordOrBot (b : Bool) (v : BitVec w) : CanonicalData (wordOrBot b v) := by
  cases b
  · exact canonical_bot w
  · exact canonical_known v

theorem canonical_knownBytes (b : Bytes n) (i : Fin n) : CanonicalData (knownBytes b)[i] := by
  simpa using canonical_known _

theorem canonical_botBytes (n : Nat) (i : Fin n) : CanonicalData (botBytes n)[i] := by
  simpa using canonical_bot 8

theorem canonical_bytesOrBot (known : Bool) (b : Bytes n) (i : Fin n) : CanonicalData (bytesOrBot known b)[i] := by
  cases known
  · exact canonical_botBytes n i
  · exact canonical_knownBytes b i

theorem canonical_set {v : Vector (Data 8) n} (h : ∀ i : Fin n, CanonicalData v[i]) (k : Fin n) (b : Byte) (i : Fin n) :
    CanonicalData (v.set k.val (Data.known b))[i] := by
  rw [Fin.getElem_fin, Vector.getElem_set]
  split
  · exact canonical_known b
  · exact h i

theorem canonical_plaintext (v : Verdict) (i : Fin 32) : CanonicalData v.plaintext[i] := by
  cases v with
  | block0Fails => exact canonical_botBytes 32 i
  | block1Fails => exact canonical_botBytes 32 i
  | accepted p0 p1 => exact canonical_knownBytes (p0 ++ p1) i

/-! ### What a verdict says -/

/-- The printable bytes are 0x20 to 0x7E (R80). -/
theorem printable_iff_toNat (b : Byte) : printable b = true ↔ 0x20 ≤ b.toNat ∧ b.toNat ≤ 0x7E := by
  simp [printable, prLo, prHi, delAccepted, BitVec.le_def]

/-- A block passes when each of its bytes is printable (R81). -/
theorem blockOk_iff_forall (p : Block) : blockOk p = true ↔ ∀ i : Fin 16, printable p[i] = true := by
  simp only [blockOk, List.all_eq_true, Vector.mem_toList_iff, Vector.mem_iff_getElem]
  exact ⟨fun h i => h _ ⟨i.val, i.isLt, rfl⟩, fun h _ ⟨i, hi, e⟩ => e ▸ h ⟨i, hi⟩⟩

/-- What `PT` may hold while `ACC = 1` (R31(e)): each byte is `⊥` or printable. -/
def PrintableText (pt : Vector (Data 8) 32) : Prop :=
  ∀ i : Fin 32, pt[i].specified = true → 0x20 ≤ pt[i].value.toNat ∧ pt[i].value.toNat ≤ 0x7E

theorem printableText_botBytes : PrintableText (botBytes 32) := by
  intro i h
  simp at h

/-- An accepted plaintext is printable throughout (R83, R31(e)). -/
theorem printableText_plaintext {s : State} (hacc : s.verdict.acc = true) : PrintableText s.verdict.plaintext := by
  cases hv : s.verdict with
  | block0Fails => rw [hv] at hacc; cases hacc
  | block1Fails => rw [hv] at hacc; cases hacc
  | accepted p0 p1 =>
    obtain ⟨_, _, hok0, hok1⟩ := oracleVerdict_accepted hv
    intro i _
    simp only [Verdict.plaintext, Fin.getElem_fin, knownBytes_getElem, Data.known_value]
    rw [← printable_iff_toNat, Vector.getElem_append]
    split
    next hi => exact (blockOk_iff_forall p0).mp hok0 ⟨i.val, hi⟩
    next hi => exact (blockOk_iff_forall p1).mp hok1 ⟨i.val - 16, by omega⟩

/-- The decryptions a verdict took and the flags it leaves belong together (R84, R87). -/
theorem verdict_decrypts_cases (v : Verdict) :
    (v.decrypts = 1 ∧ v.b1dec = false ∧ v.acc = false) ∨ (v.decrypts = 2 ∧ v.b1dec = true) := by
  cases v with
  | block0Fails => exact .inl ⟨rfl, rfl, rfl⟩
  | block1Fails => exact .inr ⟨rfl, rfl⟩
  | accepted => exact .inr ⟨rfl, rfl⟩

end Sys2Proof.Proofs
end

section
/-! The invariant of the block (R31): it holds at reset, and each effect of a step keeps it. -/

namespace Sys2Proof.Proofs

open Sys2Proof Sys2Proof.Machine Sys2Proof.Safety

/-! ### Parts of the invariant that hold for want of a search -/

theorem countdownInv_of_mode_ne {s : State} (h : s.mode ≠ .countdown) : CountdownInv s := fun hm => absurd hm h

theorem lfsrInv_of_mode_ne {s : State} (h : s.mode ≠ .lfsr) : LfsrInv s := fun hm => absurd hm h

/-- Without a search `MODE` is 0 (R24). -/
theorem mode_eq_none {s : State} (h : ControlInv s) (hs : searchExists s.state = false) : s.mode = .none := by
  obtain ⟨_, _, hmode, _, _⟩ := h
  by_contra hne
  rw [hmode.mp hne] at hs
  cases hs

/-- Outside ERROR `CAUSE` is 0 (R23). -/
theorem cause_eq_zero {s : State} (h : ControlInv s) (hs : s.state ≠ .error) : s.cause = 0 := by
  obtain ⟨hcause, _, _, _, _⟩ := h
  by_contra hne
  exact hs (hcause.mp hne)

theorem mode_of_idle {s : State} (h : Inv s) (idle : s.state = .idle) : s.mode = .none :=
  mode_eq_none h.control (by rw [idle]; rfl)

theorem cause_of_idle {s : State} (h : Inv s) (idle : s.state = .idle) : s.cause = 0 :=
  cause_eq_zero h.control (by rw [idle]; decide)

/-- The control registers of a search in progress or at its end belong together. -/
theorem controlInv_of_search {s : State} (hcause : s.cause = 0) (hs : searchExists s.state = true)
    (hmode : s.mode = .countdown ∨ s.mode = .lfsr ∧ s.state ≠ .exhausted) (hflags : s.flags.acc = true → s.flags.b1dec = true) :
    ControlInv s := by
  refine ⟨⟨fun h => absurd hcause h, fun h => ?_⟩, .inl hcause, ⟨fun _ => hs, fun _ => ?_⟩, hflags, fun h => ?_⟩
  · rw [h] at hs; cases hs
  · rcases hmode with h | ⟨h, _⟩ <;> simp [h]
  · exact hmode.resolve_right fun h' => h'.2 h

/-! ### Effects that leave the search alone -/

/-- The invariant does not see the events to come, the read-data signal, the free-value index or the sticky flags. -/
theorem inv_of_world {s : State} (h : Inv s) (es : List Event) (n d : Nat) (b : Byte) (illcmd illwr : Bool) :
    Inv { s with
      schedule := es, rounds := n, draws := d, rdata := b, flags := { s.flags with illcmd := illcmd, illwr := illwr } } :=
  ⟨h.canonical, h.control, h.result, h.countdown, h.lfsr⟩

theorem inv_advance {s : State} (h : Inv s) : Inv s.advance := by
  rw [State.advance_frame]
  exact inv_of_world h _ _ _ _ _ _

theorem inv_afterRead {s : State} (h : Inv s) (a : Addr) : Inv (s.afterRead a) := inv_of_world h _ _ _ _ _ _

theorem inv_dropCommand {s : State} (h : Inv s) : Inv s.dropCommand := inv_of_world h _ _ _ _ _ _

theorem inv_dropWrite {s : State} (h : Inv s) : Inv s.dropWrite := inv_of_world h _ _ _ _ _ _

/-- The known form of a stored byte keeps `⊥` in its one form. -/
theorem canonicalBots_store {s : State} (h : CanonicalBots s) (l : Loc) (v : Byte) : CanonicalBots (s.store l v) := by
  obtain ⟨hiv, hct, hkey, hrest⟩ := h
  cases l with
  | iv i => exact ⟨canonical_set hiv i v, hct, hkey, hrest⟩
  | ct i => exact ⟨hiv, canonical_set hct i v, hkey, hrest⟩
  | key i => exact ⟨hiv, hct, canonical_set hkey i v, hrest⟩
  | _ => exact ⟨hiv, hct, hkey, hrest⟩

/-- A store happens in IDLE, where no clause but that on `⊥` speaks of a register it can write. -/
theorem inv_store {s : State} (h : Inv s) (idle : s.state = .idle) (l : Loc) (v : Byte) : Inv (s.store l v) where
  canonical := canonicalBots_store h.canonical l v
  control := by rw [State.store_frame]; exact h.control
  result := by rw [State.store_frame]; exact h.result
  countdown := by rw [State.store_frame]; exact countdownInv_of_mode_ne (by simp [mode_of_idle h idle])
  lfsr := by rw [State.store_frame]; exact lfsrInv_of_mode_ne (by simp [mode_of_idle h idle])

/-- InvalidInputLength is raised in IDLE, so `MODE` is 0 in ERROR (R24, R198). -/
theorem inv_raise {s : State} (h : Inv s) (idle : s.state = .idle) : Inv s.raiseInvalidInputLength where
  canonical := h.canonical
  control := by
    obtain ⟨_, _, _, hflags, _⟩ := h.control
    refine ⟨by simp, .inr rfl, ?_, hflags, nofun⟩
    simp [mode_of_idle h idle, searchExists]
  result := ⟨nofun, h.result.2⟩
  countdown := countdownInv_of_mode_ne (by simp [mode_of_idle h idle])
  lfsr := lfsrInv_of_mode_ne (by simp [mode_of_idle h idle])

/-- `CLEAR` leaves the data registers and no search (R147). -/
theorem inv_clearControl {s : State} (h : Inv s) : Inv s.clearControl where
  canonical := h.canonical
  control := by simp [ControlInv, searchExists]
  result := ⟨nofun, nofun⟩
  countdown := countdownInv_of_mode_ne (by simp)
  lfsr := lfsrInv_of_mode_ne (by simp)

/-- `RUN` and `STOP` move between the two states of a search in progress, of which the invariant says the same. -/
theorem inv_set_searching {s : State} (h : Inv s) (hs : s.state = .paused ∨ s.state = .run) {c : ControlState}
    (hc : c = .paused ∨ c = .run) : Inv { s with state := c } where
  canonical := h.canonical
  control := by
    have hcause : s.cause = 0 := cause_eq_zero h.control (by rcases hs with hs | hs <;> simp [hs])
    obtain ⟨_, _, hmode, hflags, _⟩ := h.control
    have hm : s.mode ≠ .none := hmode.mpr (by rcases hs with hs | hs <;> simp [hs, searchExists])
    refine controlInv_of_search hcause (by rcases hc with rfl | rfl <;> rfl) ?_ hflags
    rcases hc with rfl | rfl <;> cases hm' : s.mode <;> simp_all
  result := ⟨fun hf => (by rcases hc with rfl | rfl <;> cases hf), h.result.2⟩
  countdown := by
    intro hm
    obtain ⟨hfloor, hrange, _⟩ := h.countdown hm
    refine ⟨hfloor, fun hcnt hflr => ?_, fun _ hf => ?_⟩
    · obtain ⟨hle, hbytes, _⟩ := hrange hcnt hflr
      refine ⟨fun _ => hle (hs.imp_right .inl), fun _ => hbytes hs, fun he => ?_⟩
      rcases hc with rfl | rfl <;> cases he
    · rcases hc with rfl | rfl <;> cases hf
  lfsr := h.lfsr

/-! ### Reset -/

/-- Every data register is `⊥` in its one form, and no search exists (R32). -/
theorem inv_applyReset (s : State) : Inv s.applyReset where
  canonical := by
    refine ⟨?_, ?_, ?_, ?_, ?_, canonical_bot 64, canonical_bot 64, canonical_bot 40⟩ <;> intro i
    all_goals simpa [State.reset] using canonical_bot 8
  control := by simp [ControlInv, searchExists, State.reset]
  result := ⟨nofun, nofun⟩
  countdown := countdownInv_of_mode_ne nofun
  lfsr := lfsrInv_of_mode_ne nofun

/-! ### The Oracle, `INIT_CD` and `INIT_LF` -/

/-- After an Oracle call in `s`, whatever the operation around it does to `STATE` short of FOUND without acceptance (R31(e)). -/
theorem resultInv_of_verdict {s t : State} (hacc : t.flags.acc = s.verdict.acc)
    (hfound : t.state = .found → s.verdict.acc = true) (hpt : t.pt = botBytes 32 ∨ t.pt = s.verdict.plaintext) :
    ResultInv t := by
  refine ⟨fun hf => hacc.trans (hfound hf), fun ha => ?_⟩
  rcases hpt with e | e <;> rw [e]
  · exact printableText_botBytes
  · exact printableText_plaintext (hacc.symm.trans ha)

/-- `TEST` writes `PT`, the verdict flags and the counters, in IDLE (R88). -/
theorem inv_oracle {s : State} (h : Inv s) (idle : s.state = .idle) : Inv s.oracle where
  canonical := by
    obtain ⟨hiv, hct, hkey, _, hrest⟩ := h.canonical
    unfold CanonicalBots
    simp only [State.oracle_iv, State.oracle_ct, State.oracle_key, State.oracle_pt, State.oracle_prefixReg,
      State.oracle_cnt, State.oracle_floor, State.oracle_lfsr]
    refine ⟨hiv, hct, hkey, fun i => ?_, hrest⟩
    split
    · exact canonical_botBytes 32 i
    · exact canonical_plaintext s.verdict i
  control := by
    simp only [ControlInv, State.oracle_cause, State.oracle_state, State.oracle_mode, State.oracle_flags,
      Flags.setVerdict_acc, Flags.setVerdict_b1dec]
    obtain ⟨hcause, hcode, hmode, _, hexhausted⟩ := h.control
    exact ⟨hcause, hcode, hmode, s.verdict.b1dec_of_acc, hexhausted⟩
  result := by
    refine resultInv_of_verdict (s := s) (by simp) (fun hf => ?_) ?_
    · rw [State.oracle_state, idle] at hf; cases hf
    · rw [State.oracle_pt]
      exact ite_eq_or_eq _ _ _
  countdown := countdownInv_of_mode_ne (by simp [mode_of_idle h idle])
  lfsr := lfsrInv_of_mode_ne (by simp [mode_of_idle h idle])

/-- `INIT_CD` sets up the whole range: the counter at the ceiling, with the known bytes of `prefixReg`, above the floor (R103). -/
theorem countdownInv_initCountdown (s : State) : CountdownInv s.initCountdown := by
  intro _
  cases hk : knownRange s.iv 0 s.ivlen.toNat <;>
    simp only [State.initCountdown_cnt, State.initCountdown_floor, State.initCountdown_prefixReg,
      State.initCountdown_state, State.initCountdown_ivlen, hk]
  case false => exact ⟨nofun, nofun, nofun⟩
  case true =>
    simp only [wordOrBot_true, bytesOrBot_true, Data.known_value, knownBytes_getElem]
    refine ⟨fun _ _ j hj => unbe64_ivSuffix_byte _ floorFill j hj, fun _ _ => ?_, nofun⟩
    refine ⟨fun _ => floorVal_le_ceilingVal _ _, fun _ _ => ⟨?_, fun j hj => unbe64_ivSuffix_byte _ fill j hj⟩, nofun⟩
    exact BitVec.le_of_eq (ceilingVal_eq_unbe64_mkPrefix _ _)

theorem inv_initCountdown {s : State} (h : Inv s) (idle : s.state = .idle) : Inv s.initCountdown where
  canonical := by
    obtain ⟨hiv, hct, hkey, hpt, _, _, _, hlfsr⟩ := h.canonical
    unfold CanonicalBots
    simp only [State.initCountdown_iv, State.initCountdown_ct, State.initCountdown_key, State.initCountdown_pt,
      State.initCountdown_prefixReg, State.initCountdown_cnt, State.initCountdown_floor, State.initCountdown_lfsr]
    exact ⟨hiv, hct, hkey, hpt, canonical_bytesOrBot _ _, canonical_wordOrBot _ _, canonical_wordOrBot _ _, hlfsr⟩
  control := controlInv_of_search (by simpa using cause_of_idle h idle) (by simp [searchExists]) (by simp) (by simp)
  result := ⟨by simp, by simp⟩
  countdown := countdownInv_initCountdown s
  lfsr := lfsrInv_of_mode_ne (by simp)

/-- `INIT_LF` writes the seed, which is not the lock-up value, and clears the counter (R122). -/
theorem lfsrInv_initLfsr (s : State) : LfsrInv s.initLfsr := by
  intro _
  simp only [State.initLfsr_lfsr, State.initLfsr_steps]
  cases knownRange s.iv 0 s.ivlen.toNat with
  | false => exact nofun
  | true => exact fun _ => ⟨by decide, fun hsteps => absurd rfl hsteps⟩

theorem inv_initLfsr {s : State} (h : Inv s) (idle : s.state = .idle) : Inv s.initLfsr where
  canonical := by
    obtain ⟨hiv, hct, hkey, hpt, _, hcnt, hfloor, _⟩ := h.canonical
    unfold CanonicalBots
    simp only [State.initLfsr_iv, State.initLfsr_ct, State.initLfsr_key, State.initLfsr_pt, State.initLfsr_prefixReg,
      State.initLfsr_cnt, State.initLfsr_floor, State.initLfsr_lfsr]
    exact ⟨hiv, hct, hkey, hpt, canonical_bytesOrBot _ _, hcnt, hfloor, canonical_wordOrBot _ _⟩
  control := controlInv_of_search (by simpa using cause_of_idle h idle) (by simp [searchExists]) (by simp) (by simp)
  result := ⟨by simp, by simp⟩
  countdown := countdownInv_of_mode_ne (by simp)
  lfsr := lfsrInv_initLfsr s

/-! ### A countdown step -/

theorem canonicalBots_countdownStep {s : State} (h : CanonicalBots s) : CanonicalBots s.countdownStep := by
  obtain ⟨hiv, hct, _, _, hpfx, hcnt, hfloor, hlfsr⟩ := h
  unfold CanonicalBots
  simp only [countdownStep_iv, countdownStep_ct, countdownStep_prefixReg, countdownStep_floor, countdownStep_lfsr]
  rcases s.countdownStep_data with ⟨_, ekey, ecnt, ept, _⟩ | ⟨_, ekey, ecnt, ept, _⟩ <;> rw [ekey, ecnt, ept]
  · exact ⟨hiv, hct, canonical_botBytes 16, canonical_botBytes 32, hpfx, canonical_bot 64, hfloor, hlfsr⟩
  · refine ⟨hiv, hct, fun i => ?_, canonical_plaintext _, hpfx, ?_, hfloor, hlfsr⟩
    · rw [State.cdCandidate_key]
      exact canonical_knownBytes _ i
    · split
      · exact hcnt
      · exact canonical_known _

theorem resultInv_countdownStep {s : State} (hs : s.state = .paused ∨ s.state = .run) : ResultInv s.countdownStep := by
  obtain ⟨eflags, _, _, estate⟩ := s.countdownStep_control
  refine resultInv_of_verdict (s := s.cdCandidate) (by rw [eflags]; rfl) (fun hf => ?_) ?_
  · rw [estate] at hf
    by_contra hacc
    rw [if_neg hacc] at hf
    rcases hs with hs | hs <;> rw [hs] at hf <;> split at hf <;> cases hf
  · rcases s.countdownStep_data with ⟨_, _, _, ept, _⟩ | ⟨_, _, _, ept, _⟩
    · exact .inl ept
    · exact .inr ept

/-- The bytes of an accepted candidate's suffix (R31(c), R104). -/
theorem cdCandidate_key_suffix (s : State) (j : Fin 8) :
    s.cdCandidate.key[8 + j.val] = Data.known (s.cntValue.extractLsb' (56 - 8 * j.val) 8) := by
  simp [Laws.keyCd_getElem]

/-- A countdown step over specified operands: the counter stays if the candidate is accepted; else it goes one down, which
stays in the range unless it was at the floor (R105, R31(b), (c)). -/
theorem countdownInv_countdownStep {s : State} (h : CountdownInv s) (hs : s.state = .paused ∨ s.state = .run) :
    CountdownInv s.countdownStep := by
  intro hm
  rw [countdownStep_mode] at hm
  obtain ⟨hfloor, hrange, _⟩ := h hm
  obtain ⟨_, _, _, estate⟩ := s.countdownStep_control
  simp only [countdownStep_floor, countdownStep_prefixReg, countdownStep_ivlen, estate]
  refine ⟨hfloor, ?_⟩
  rcases s.countdownStep_data with ⟨_, _, ecnt, _, _⟩ | ⟨hb, ekey, ecnt, _, _⟩
  · rw [ecnt]
    exact ⟨nofun, nofun⟩
  · obtain ⟨_, hcnt, hflr, _⟩ := (Laws.cdReadsBot_iff s).mp hb
    obtain ⟨hle, hbytes, _⟩ := hrange hcnt hflr
    have hle := hle (hs.imp_right .inl)
    have hc : s.cntValue = s.cnt.value := Data.resolve_of_specified hcnt _
    have hf : s.floorValue = s.floor.value := Data.resolve_of_specified hflr _
    rw [ecnt, ekey, hc, hf]
    by_cases hacc : s.cdCandidate.verdict.acc = true
    · rw [if_pos hacc, if_pos hacc]
      refine ⟨fun _ _ => ⟨fun _ => hle, nofun, nofun⟩, fun _ _ j => ?_⟩
      rw [cdCandidate_key_suffix, hc]
    · rw [if_neg hacc, if_neg hacc]
      by_cases heq : s.cnt.value = s.floor.value
      · rw [if_pos heq, heq]
        exact ⟨fun _ _ => ⟨nofun, nofun, fun _ => rfl⟩, nofun⟩
      · rw [if_neg heq]
        have hdown := floor_le_sub_one hle heq
        refine ⟨fun _ _ => ⟨fun _ => hdown.1, fun _ hpfx => ?_, fun he => ?_⟩, fun _ he => ?_⟩
        · obtain ⟨hceil, hknown⟩ := hbytes hs hpfx
          exact ⟨BitVec.le_trans hdown.2 hceil, sub_one_keeps_known_bytes hle heq (hfloor hflr hpfx) hknown⟩
        · rcases hs with hs | hs <;> rw [hs] at he <;> cases he
        · rcases hs with hs | hs <;> rw [hs] at he <;> cases he

theorem inv_countdownStep {s : State} (h : Inv s) (hs : s.state = .paused ∨ s.state = .run) (hm : s.mode = .countdown) :
    Inv s.countdownStep where
  canonical := canonicalBots_countdownStep h.canonical
  control := by
    obtain ⟨eflags, _, _, estate⟩ := s.countdownStep_control
    have hcause : s.cause = 0 := cause_eq_zero h.control (by rcases hs with hs | hs <;> simp [hs])
    refine controlInv_of_search (by simpa using hcause) ?_ (by simp [hm]) ?_
    · rw [estate]
      rcases hs with hs | hs <;> rw [hs] <;> split_ifs <;> rfl
    · rw [eflags]
      exact s.cdCandidate.verdict.b1dec_of_acc
  result := resultInv_countdownStep hs
  countdown := countdownInv_countdownStep h.countdown hs
  lfsr := lfsrInv_of_mode_ne (by simp [hm])

/-! ### An LFSR step -/

theorem canonicalBots_lfsrStep {s : State} (h : CanonicalBots s) : CanonicalBots s.lfsrStep := by
  obtain ⟨hiv, hct, _, _, hpfx, hcnt, hfloor, _⟩ := h
  unfold CanonicalBots
  simp only [lfsrStep_iv, lfsrStep_ct, lfsrStep_prefixReg, lfsrStep_cnt, lfsrStep_floor]
  rcases s.lfsrStep_data with ⟨_, ekey, elfsr, ept, _⟩ | ⟨_, ekey, elfsr, ept, _⟩ <;> rw [ekey, elfsr, ept]
  · exact ⟨hiv, hct, canonical_botBytes 16, canonical_botBytes 32, hpfx, hcnt, hfloor, canonical_bot 40⟩
  · rw [State.lfCandidate_key, State.lfCandidate_lfsr]
    exact ⟨hiv, hct, canonical_knownBytes _, canonical_plaintext _, hpfx, hcnt, hfloor, canonical_known _⟩

theorem resultInv_lfsrStep {s : State} (hs : s.state = .paused ∨ s.state = .run) : ResultInv s.lfsrStep := by
  obtain ⟨eflags, _, _, estate⟩ := s.lfsrStep_control
  refine resultInv_of_verdict (s := s.lfCandidate) (by rw [eflags]; rfl) (fun hf => ?_) ?_
  · rw [estate] at hf
    by_contra hacc
    rw [if_neg hacc] at hf
    rcases hs with hs | hs <;> rw [hs] at hf <;> cases hf
  · rcases s.lfsrStep_data with ⟨_, _, _, ept, _⟩ | ⟨_, _, _, ept, _⟩
    · exact .inl ept
    · exact .inr ept

/-- An LFSR step over specified operands: the register goes to its successor, and `KEY` is the candidate built from it (R124,
R31(d)). -/
theorem lfsrInv_lfsrStep {s : State} (h : LfsrInv s) : LfsrInv s.lfsrStep := by
  intro hm
  rw [lfsrStep_mode] at hm
  rcases s.lfsrStep_data with ⟨_, _, elfsr, _, _⟩ | ⟨hb, ekey, elfsr, _, _⟩
  · rw [elfsr]
    exact nofun
  · obtain ⟨hpfx, hlfsr, _⟩ := (Laws.lfReadsBot_iff s).mp hb
    have hnext : lfsrNext s.lfsrValue ≠ 0xFFFFFFFFFF#40 := by
      rw [State.lfsrValue, Data.resolve_of_specified hlfsr]
      exact fun e => (h hm hlfsr).1 (eq_allOnes_of_lfsrNext e)
    rw [elfsr, ekey, lfsrStep_prefixReg, State.lfCandidate_lfsr, State.lfCandidate_key]
    refine fun _ => ⟨hnext, fun _ => ⟨fun i => ?_, fun j => ?_⟩⟩
    · rw [knownBytes_getElem, Laws.keyLf_getElem, if_pos i.isLt, Laws.prefixBytes_getElem hpfx (by omega) i.isLt]
      exact (Data.eq_known (hpfx ⟨i.val, by omega⟩ (Nat.zero_le _) i.isLt)).symm
    · simp [Laws.keyLf_getElem]

theorem inv_lfsrStep {s : State} (h : Inv s) (hs : s.state = .paused ∨ s.state = .run) (hm : s.mode = .lfsr) :
    Inv s.lfsrStep where
  canonical := canonicalBots_lfsrStep h.canonical
  control := by
    obtain ⟨eflags, _, _, estate⟩ := s.lfsrStep_control
    have hcause : s.cause = 0 := cause_eq_zero h.control (by rcases hs with hs | hs <;> simp [hs])
    refine controlInv_of_search (by simpa using hcause) ?_ (.inr ⟨by simp [hm], ?_⟩) ?_
    · rw [estate]
      rcases hs with hs | hs <;> rw [hs] <;> split_ifs <;> rfl
    · rw [estate]
      rcases hs with hs | hs <;> rw [hs] <;> split_ifs <;> simp
    · rw [eflags]
      exact s.lfCandidate.verdict.b1dec_of_acc
  result := resultInv_lfsrStep hs
  countdown := countdownInv_of_mode_ne (by simp [hm])
  lfsr := lfsrInv_lfsrStep h.lfsr

/-! ### Every step -/

theorem inv_of_effect {s t : State} (h : Inv s) (e : Effect s t) : Inv t := by
  cases e with
  | unchanged => exact h
  | read a => exact inv_afterRead h a
  | dropCommand => exact inv_dropCommand h
  | dropWrite => exact inv_dropWrite h
  | store l v idle => exact inv_store h idle l v
  | raise idle => exact inv_raise h idle
  | initCountdown idle _ => exact inv_initCountdown h idle
  | initLfsr idle _ => exact inv_initLfsr h idle
  | test idle => exact inv_oracle h idle
  | run paused => exact inv_set_searching h (.inl paused) (.inr rfl)
  | stop running => exact inv_set_searching h (.inr running) (.inl rfl)
  | countdownStep searching mode => exact inv_countdownStep h searching mode
  | lfsrStep searching mode => exact inv_lfsrStep h searching mode

/-- Settles O52: by the case list of a step, each effect keeping the invariant by the rule it follows. -/
theorem everyStepKeepsTheInvariant : Obligations.EveryStepKeepsTheInvariant := by
  intro s t hs h
  rcases step_effect h with ⟨_, rfl⟩ | ⟨_, rfl⟩ | e
  · exact inv_applyReset _
  · exact inv_clearControl (inv_advance hs)
  · exact inv_of_effect (inv_advance hs) e

/-- Settles O51: the reset event on the reset state gives that state again. -/
theorem invariantHoldsAtReset : Obligations.InvariantHoldsAtReset := inv_applyReset State.reset

end Sys2Proof.Proofs
end

section
/-! What every step keeps or moves together, by the case list of a step: the counters, the inputs of a search, the sticky
flags. -/

namespace Sys2Proof.Proofs

open Sys2Proof Sys2Proof.Machine Sys2Proof.Safety

/-! ### The counters (R26, R27, R84) -/

/-- `STEPS` and `DECS` counted one Oracle call, with the verdict flags it left (R84, R87). -/
def CountsOneCall (s t : State) : Prop :=
  (t.steps = s.steps + 1 ∧ t.decs = s.decs + 1 ∧ t.flags.b1dec = false ∧ t.flags.acc = false) ∨
    (t.steps = s.steps + 1 ∧ t.decs = s.decs + 2 ∧ t.flags.b1dec = true)

theorem countsOneCall_of_verdict {s t : State} (v : Verdict) (hflags : t.flags = s.flags.setVerdict v.acc v.b1dec)
    (hsteps : t.steps = s.steps + 1) (hdecs : t.decs = s.decs + v.decrypts) : CountsOneCall s t := by
  rcases verdict_decrypts_cases v with ⟨hd, hb, ha⟩ | ⟨hd, hb⟩
  · exact .inl ⟨hsteps, by rw [hdecs, hd], by rw [hflags]; exact hb, by rw [hflags]; exact ha⟩
  · exact .inr ⟨hsteps, by rw [hdecs, hd], by rw [hflags]; exact hb⟩

theorem effect_counters {s t : State} (e : Effect s t) :
    (t.steps = s.steps ∧ t.decs = s.decs) ∨ (t.steps = 0 ∧ t.decs = 0) ∨ CountsOneCall s t := by
  cases e with
  | unchanged => exact .inl ⟨rfl, rfl⟩
  | read a => exact .inl ⟨s.afterRead_steps a, s.afterRead_decs a⟩
  | dropCommand => exact .inl ⟨rfl, rfl⟩
  | dropWrite => exact .inl ⟨rfl, rfl⟩
  | store l v _ => exact .inl (by rw [State.store_frame]; exact ⟨rfl, rfl⟩)
  | raise _ => exact .inl ⟨rfl, rfl⟩
  | initCountdown _ _ => exact .inr (.inl ⟨s.initCountdown_steps, s.initCountdown_decs⟩)
  | initLfsr _ _ => exact .inr (.inl ⟨s.initLfsr_steps, s.initLfsr_decs⟩)
  | test _ => exact .inr (.inr (countsOneCall_of_verdict _ s.oracle_flags s.oracle_steps s.oracle_decs))
  | run _ => exact .inl ⟨rfl, rfl⟩
  | stop _ => exact .inl ⟨rfl, rfl⟩
  | countdownStep _ _ =>
    obtain ⟨eflags, esteps, edecs, _⟩ := s.countdownStep_control
    exact .inr (.inr (countsOneCall_of_verdict _ eflags esteps edecs))
  | lfsrStep _ _ =>
    obtain ⟨eflags, esteps, edecs, _⟩ := s.lfsrStep_control
    exact .inr (.inr (countsOneCall_of_verdict _ eflags esteps edecs))

/-- Settles O33: reset and `CLEAR` zero both counters, and every other effect moves them by the table of R87. -/
theorem countersShowTheShortCircuit : Obligations.CountersShowTheShortCircuit := by
  intro s t h
  rcases step_effect h with ⟨_, rfl⟩ | ⟨_, rfl⟩ | e
  · exact .inr (.inl ⟨rfl, rfl⟩)
  · exact .inr (.inl ⟨rfl, rfl⟩)
  · simpa [CountsOneCall] using effect_counters e

/-! ### The inputs of a search (R31(a)) -/

/-- The registers a search reads and never writes. -/
def SameInputs (s t : State) : Prop :=
  t.prefixReg = s.prefixReg ∧ t.floor = s.floor ∧ t.ct = s.ct ∧ t.iv = s.iv ∧ t.ivlen = s.ivlen ∧ t.ctblks = s.ctblks

theorem effect_sameInputs {s t : State} (hs : s.state ≠ .idle) (e : Effect s t) : SameInputs s t := by
  cases e with
  | unchanged => exact ⟨rfl, rfl, rfl, rfl, rfl, rfl⟩
  | read a => simp [SameInputs]
  | dropCommand => exact ⟨rfl, rfl, rfl, rfl, rfl, rfl⟩
  | dropWrite => exact ⟨rfl, rfl, rfl, rfl, rfl, rfl⟩
  | store _ _ idle => exact absurd idle hs
  | raise idle => exact absurd idle hs
  | initCountdown idle _ => exact absurd idle hs
  | initLfsr idle _ => exact absurd idle hs
  | test idle => exact absurd idle hs
  | run _ => exact ⟨rfl, rfl, rfl, rfl, rfl, rfl⟩
  | stop _ => exact ⟨rfl, rfl, rfl, rfl, rfl, rfl⟩
  | countdownStep _ _ => simp [SameInputs]
  | lfsrStep _ _ => simp [SameInputs]

/-- Settles O53: an effect that writes one of the inputs needs IDLE, and `CLEAR` writes control registers only. -/
theorem inputsAreFrozenDuringASearch : Obligations.InputsAreFrozenDuringASearch := by
  intro s t hs hreset h
  have hidle : s.state ≠ .idle := fun idle => by rw [idle] at hs; cases hs
  rcases step_effect h with ⟨hr, _⟩ | ⟨_, rfl⟩ | e
  · exact absurd hr hreset
  · simp
  · simpa [SameInputs] using effect_sameInputs (s.advance_state ▸ hidle) e

/-! ### The sticky flags (R25) -/

theorem effect_keeps_illegal_flags {s t : State} (e : Effect s t) :
    (s.flags.illcmd = true → t.flags.illcmd = true) ∧ (s.flags.illwr = true → t.flags.illwr = true) := by
  cases e with
  | unchanged => exact ⟨id, id⟩
  | read a => rw [State.afterRead_flags]; exact ⟨id, id⟩
  | dropCommand => exact ⟨fun _ => rfl, id⟩
  | dropWrite => exact ⟨id, fun _ => rfl⟩
  | store l v _ => rw [State.store_frame]; exact ⟨id, id⟩
  | raise _ => exact ⟨id, id⟩
  | initCountdown _ _ => rw [State.initCountdown_flags]; exact ⟨id, id⟩
  | initLfsr _ _ => rw [State.initLfsr_flags]; exact ⟨id, id⟩
  | test _ => rw [State.oracle_flags]; exact ⟨id, id⟩
  | run _ => exact ⟨id, id⟩
  | stop _ => exact ⟨id, id⟩
  | countdownStep _ _ => rw [s.countdownStep_control.1]; exact ⟨id, id⟩
  | lfsrStep _ _ => rw [s.lfsrStep_control.1]; exact ⟨id, id⟩

/-- Settles O56: of all that a step can do, only a reset and `CLEAR` write a sticky flag 0. -/
theorem illegalFlagsAreSticky : Obligations.IllegalFlagsAreSticky := by
  intro s t h hclear hreset
  rcases step_effect h with ⟨hr, _⟩ | ⟨hc, _⟩ | e
  · exact absurd hr hreset
  · exact absurd hc hclear
  · simpa using effect_keeps_illegal_flags e

end Sys2Proof.Proofs
end

section
/-! Host reads of control registers, of reserved addresses and of unspecified bytes; what reset leaves; the views of `STATE`. -/

namespace Sys2Proof.Proofs

open Sys2Proof Sys2Proof.Machine Sys2Proof.Safety

/-! ### Reads (R42, R47, R140) -/

/-- A read of a specified datum returns it and changes no register. -/
theorem exec_hrd_of_known {s : State} {a : Addr} {b : Byte} (h : s.datumAt (locOf a) = Data.known b) :
    exec (.hrd a) s = .next { s with rdata := b } := by
  simp [exec, execHrd, State.afterRead, State.hostRead, h]

/-- A read of an unspecified datum returns the free value of this occasion and uses it up (R30(a)). -/
theorem exec_hrd_of_unspecified {s : State} {a : Addr} (h : (s.datumAt (locOf a)).specified = false) :
    exec (.hrd a) s = .next { s with rdata := Config.freeByte s.draws a, draws := s.draws + 1 } := by
  simp [exec, execHrd, State.afterRead, State.hostRead, Data.resolve_of_unspecified h, h]

/-- The addresses of R48 are mapped to no register. -/
theorem locOf_of_reservedAddr {a : Addr} (h : ReservedAddr a) : locOf a = .reserved := by
  unfold ReservedAddr at h
  revert a; decide +kernel

/-- Settles O9: the map takes 0x01 to 0x06 to the control registers, and each code fits its byte. -/
theorem hostReadReturnsControlRegisters : Obligations.HostReadReturnsControlRegisters := by
  intro s
  refine ⟨exec_hrd_of_known ?_, exec_hrd_of_known rfl, exec_hrd_of_known ?_, exec_hrd_of_known ?_, exec_hrd_of_known rfl,
    exec_hrd_of_known rfl⟩
  · show Data.known (s.state.code.setWidth 8) = _
    cases s.state <;> rfl
  · show Data.known (s.mode.code.setWidth 8) = _
    cases s.mode <;> rfl
  · show Data.known s.flags.toByte = _
    obtain ⟨acc, b1dec, illcmd, illwr⟩ := s.flags
    revert acc b1dec illcmd illwr
    decide

/-- Settles O10: `CMD` and the reserved addresses hold the datum 0x00. -/
theorem hostReadOfCmdAndReservedIsZero : Obligations.HostReadOfCmdAndReservedIsZero := by
  rintro s a (rfl | h)
  · exact exec_hrd_of_known rfl
  · exact exec_hrd_of_known (by rw [locOf_of_reservedAddr h]; rfl)

/-- An address by its number. -/
theorem addr_eq_ofNat {a : Addr} {n : Nat} (h : a.toNat = n) : a = BitVec.ofNat 8 n := by
  rw [← h, BitVec.ofNat_toNat, BitVec.setWidth_eq]

/-- A byte of an unspecified integer is unspecified (R30). -/
theorem byteBE64_unspecified {d : Data 64} (h : d.specified = false) (j : Fin 8) : (d.byteBE64 j).specified = false := by
  simp [Data.byteBE64, h]

theorem byteBE40_unspecified {d : Data 40} (h : d.specified = false) (j : Fin 5) : (d.byteBE40 j).specified = false := by
  simp [Data.byteBE40, h]

/-- Settles O12: each of the eight data registers by the part of the register map that names its bytes. -/
theorem hostReadOfUnspecifiedByteIsFree : Obligations.HostReadOfUnspecifiedByteIsFree := by
  rintro s a (⟨i, ha, h⟩ | ⟨i, ha, h⟩ | ⟨i, ha, h⟩ | ⟨i, ha, h⟩ | ⟨i, ha, h⟩ | ⟨lo, hi, h⟩ | ⟨lo, hi, h⟩ | ⟨lo, hi, h⟩) <;>
    apply exec_hrd_of_unspecified
  · rw [addr_eq_ofNat ha, locOf_iv]; exact h
  · rw [addr_eq_ofNat ha, locOf_ct]; exact h
  · rw [addr_eq_ofNat ha, locOf_key]; exact h
  · rw [addr_eq_ofNat ha, locOf_pt]; exact h
  · rw [addr_eq_ofNat ha, locOf_prefixReg]; exact h
  · rw [addr_eq_ofNat (Nat.add_sub_cancel' lo).symm, locOf_cnt ⟨a.toNat - 0x80, by omega⟩]
    exact byteBE64_unspecified h _
  · rw [addr_eq_ofNat (Nat.add_sub_cancel' lo).symm, locOf_floor ⟨a.toNat - 0x88, by omega⟩]
    exact byteBE64_unspecified h _
  · rw [addr_eq_ofNat (Nat.add_sub_cancel' lo).symm, locOf_lfsr ⟨a.toNat - 0x90, by omega⟩]
    exact byteBE40_unspecified h _

/-! ### Reset and the views of the state -/

/-- Settles O50: the reset state of the model, register by register of R32. -/
theorem resetLeavesControlZeroAndDataUnspecified : Obligations.ResetLeavesControlZeroAndDataUnspecified := by
  refine ⟨rfl, rfl, rfl, rfl, rfl, rfl, rfl, rfl, fun i => ?_, fun i => ?_, rfl, rfl, rfl, rfl⟩ <;> simp [State.reset]

/-- Settles O58: `done` and the SearchResult, control state by control state (R34, R196). -/
theorem doneAndSearchResultAreViewsOfState : Obligations.DoneAndSearchResultAreViewsOfState := by
  intro s
  cases hs : s.state <;> simp [State.done, ControlState.terminal, State.searchResult, hs]

end Sys2Proof.Proofs
end

section
/-! `INIT_CD` and `INIT_LF` over an `IV` that is not wholly written, and that they read its first `IVLEN` bytes only. -/

namespace Sys2Proof.Proofs

open Sys2Proof Sys2Proof.Machine Sys2Proof.Safety

/-! ### The three cases of each command (R103, R122, R191) -/

theorem exec_initCd_of_ok {s : State} (idle : s.state = .idle) (ok : s.inputsOk ivMax = true) :
    exec .initCd s = .next s.initCountdown := by
  simp [exec, execInitCd, idle, ok]

theorem exec_initCd_of_illegal_length {s : State} (idle : s.state = .idle) (bad : ¬ s.inputsOk ivMax = true) :
    exec .initCd s = .next s.raiseInvalidInputLength := by
  simp [exec, execInitCd, idle, bad]

theorem exec_initCd_of_not_idle {s : State} (busy : s.state ≠ .idle) : exec .initCd s = .next s.dropCommand := by
  simp [exec, execInitCd, busy]

theorem exec_initLf_of_ok {s : State} (idle : s.state = .idle) (ok : s.inputsOk lfPrefix = true) :
    exec .initLf s = .next s.initLfsr := by
  simp [exec, execInitLf, idle, ok]

theorem exec_initLf_of_illegal_length {s : State} (idle : s.state = .idle) (bad : ¬ s.inputsOk lfPrefix = true) :
    exec .initLf s = .next s.raiseInvalidInputLength := by
  simp [exec, execInitLf, idle, bad]

theorem exec_initLf_of_not_idle {s : State} (busy : s.state ≠ .idle) : exec .initLf s = .next s.dropCommand := by
  simp [exec, execInitLf, busy]

/-! ### An unwritten byte below `IVLEN` -/

theorem knownRange_eq_false {v : Vector (Data 8) n} {lo hi : Nat} (h : ¬ SpecifiedOn v lo hi) :
    knownRange v lo hi = false :=
  Bool.eq_false_iff.mpr fun hk => h ((knownRange_iff v lo hi).mp hk)

/-- Settles O25: the model's `knownRange` fails, so every data register written is `⊥`. -/
theorem initOverUnspecifiedIvGivesUnspecifiedRegisters : Obligations.InitOverUnspecifiedIvGivesUnspecifiedRegisters := by
  intro s idle hblks hiv
  have hk := knownRange_eq_false hiv
  constructor
  · intro hlen
    rw [exec_initCd_of_ok idle ((s.inputsOk_iff ivMax).mpr ⟨hlen, hblks⟩)]
    simp only [State.initCountdown, hk, bytesOrBot_false, wordOrBot_false, Laws.botBytes_eq]
    rfl
  · intro hlen
    rw [exec_initLf_of_ok idle ((s.inputsOk_iff lfPrefix).mpr ⟨hlen, hblks⟩)]
    simp only [State.initLfsr, hk, bytesOrBot_false, wordOrBot_false, Laws.botBytes_eq]
    rfl

/-! ### The bytes at `IVLEN` and above (R11) -/

section Beyond

variable {s : State} {iv : Vector (Data 8) 16} (agree : ∀ i : Fin 16, i.val < s.ivlen.toNat → iv[i] = s.iv[i])

include agree

theorem knownRange_of_agree : knownRange iv 0 s.ivlen.toNat = knownRange s.iv 0 s.ivlen.toNat := by
  rw [Bool.eq_iff_iff, knownRange_iff, knownRange_iff]
  refine forall_congr' fun i => imp_congr_right fun _ => forall_congr' fun hi => ?_
  rw [agree i hi]

theorem valuesOf_of_agree (i : Nat) (h : i < 16) (hi : i < s.ivlen.toNat) : (valuesOf iv)[i] = (valuesOf s.iv)[i] := by
  rw [valuesOf_getElem, valuesOf_getElem]
  exact congrArg Data.value (agree ⟨i, h⟩ hi)

theorem mkPrefix_of_agree : mkPrefix (valuesOf iv) s.ivlen.toNat = mkPrefix (valuesOf s.iv) s.ivlen.toNat := by
  ext i h : 1
  rw [mkPrefix_getElem, mkPrefix_getElem]
  split
  next hi => exact valuesOf_of_agree agree i h hi
  next => rfl

theorem ivSuffix_of_agree (missing : Byte) :
    ivSuffix (valuesOf iv) s.ivlen.toNat missing = ivSuffix (valuesOf s.iv) s.ivlen.toNat missing := by
  ext j h : 1
  have hj (v : Bytes 16) := ivSuffix_getElem v s.ivlen.toNat missing ⟨j, h⟩
  simp only [Fin.getElem_fin] at hj
  rw [hj, hj]
  split
  next hi => exact valuesOf_of_agree agree (8 + j) (by omega) hi
  next => rfl

theorem initCountdown_of_agree : State.initCountdown { s with iv := iv } = { s.initCountdown with iv := iv } := by
  simp only [State.initCountdown, ceilingVal, floorVal, knownRange_of_agree agree, mkPrefix_of_agree agree,
    ivSuffix_of_agree agree]
  rfl

theorem initLfsr_of_agree : State.initLfsr { s with iv := iv } = { s.initLfsr with iv := iv } := by
  simp only [State.initLfsr, knownRange_of_agree agree, mkPrefix_of_agree agree]
  rfl

theorem exec_initCd_of_agree {t : State} (h : exec .initCd s = .next t) :
    exec .initCd { s with iv := iv } = .next { t with iv := iv } := by
  by_cases idle : s.state = .idle
  · by_cases ok : s.inputsOk ivMax = true
    · cases (exec_initCd_of_ok idle ok).symm.trans h
      rw [← initCountdown_of_agree agree]
      exact exec_initCd_of_ok idle ok
    · cases (exec_initCd_of_illegal_length idle ok).symm.trans h
      exact exec_initCd_of_illegal_length idle ok
  · cases (exec_initCd_of_not_idle idle).symm.trans h
    exact exec_initCd_of_not_idle idle

theorem exec_initLf_of_agree {t : State} (h : exec .initLf s = .next t) :
    exec .initLf { s with iv := iv } = .next { t with iv := iv } := by
  by_cases idle : s.state = .idle
  · by_cases ok : s.inputsOk lfPrefix = true
    · cases (exec_initLf_of_ok idle ok).symm.trans h
      rw [← initLfsr_of_agree agree]
      exact exec_initLf_of_ok idle ok
    · cases (exec_initLf_of_illegal_length idle ok).symm.trans h
      exact exec_initLf_of_illegal_length idle ok
  · cases (exec_initLf_of_not_idle idle).symm.trans h
    exact exec_initLf_of_not_idle idle

end Beyond

/-- Settles O26: everything the two commands compute from `IV` they compute from its bytes below `IVLEN`. -/
theorem initDoesNotReadBeyondIvlen : Obligations.InitDoesNotReadBeyondIvlen :=
  fun _ _ agree _ => ⟨exec_initCd_of_agree agree, exec_initLf_of_agree agree⟩

end Sys2Proof.Proofs
end

section
/-! `TEST`, `CD_STEP` and `LF_STEP` over operands that hold `⊥` (R30(b), R222): the control registers are those of the same
operation on the state in which each `⊥` is the value it turned out to be. -/

namespace Sys2Proof.Proofs

open Sys2Proof Sys2Proof.Machine Sys2Proof.Safety

/-! ### The filled-in state -/

/-- `s` with every operand of `TEST` and of the enumerator steps as the operation sees it on this occasion. -/
def fillIn (s : State) : State :=
  { s with
    ct := knownBytes s.ctBytes, key := knownBytes s.keyBytes, prefixReg := knownBytes s.prefixBytes
    cnt := Data.known s.cntValue, floor := Data.known s.floorValue, lfsr := Data.known s.lfsrValue }

@[simp] theorem fillIn_ct (s : State) : (fillIn s).ct = knownBytes s.ctBytes := by unfold fillIn; rfl
@[simp] theorem fillIn_key (s : State) : (fillIn s).key = knownBytes s.keyBytes := by unfold fillIn; rfl
@[simp] theorem fillIn_prefixReg (s : State) : (fillIn s).prefixReg = knownBytes s.prefixBytes := by unfold fillIn; rfl
@[simp] theorem fillIn_cnt (s : State) : (fillIn s).cnt = Data.known s.cntValue := by unfold fillIn; rfl
@[simp] theorem fillIn_floor (s : State) : (fillIn s).floor = Data.known s.floorValue := by unfold fillIn; rfl
@[simp] theorem fillIn_lfsr (s : State) : (fillIn s).lfsr = Data.known s.lfsrValue := by unfold fillIn; rfl
@[simp] theorem fillIn_state (s : State) : (fillIn s).state = s.state := by unfold fillIn; rfl
@[simp] theorem fillIn_cause (s : State) : (fillIn s).cause = s.cause := by unfold fillIn; rfl
@[simp] theorem fillIn_mode (s : State) : (fillIn s).mode = s.mode := by unfold fillIn; rfl
@[simp] theorem fillIn_flags (s : State) : (fillIn s).flags = s.flags := by unfold fillIn; rfl
@[simp] theorem fillIn_steps (s : State) : (fillIn s).steps = s.steps := by unfold fillIn; rfl
@[simp] theorem fillIn_decs (s : State) : (fillIn s).decs = s.decs := by unfold fillIn; rfl
@[simp] theorem fillIn_ivlen (s : State) : (fillIn s).ivlen = s.ivlen := by unfold fillIn; rfl
@[simp] theorem fillIn_ctblks (s : State) : (fillIn s).ctblks = s.ctblks := by unfold fillIn; rfl

/-- Reading an array fills in its `⊥`s and nothing else. -/
theorem fills_resolveBytes (v : Vector (Data 8) n) (draw base : Nat) : Fills v (knownBytes (resolveBytes v draw base)) := by
  intro i
  simp only [Fin.getElem_fin, knownBytes_getElem, resolveBytes_getElem, Data.known_specified, true_and]
  intro h
  rw [Data.resolve_of_specified h]
  exact (Data.eq_known h).symm

theorem fillsWord_resolve (d : Data w) (free : BitVec w) : FillsWord d (Data.known (d.resolve free)) := by
  refine ⟨rfl, fun h => ?_⟩
  rw [Data.resolve_of_specified h]
  exact (Data.eq_known h).symm

theorem filledIn_fillIn (s : State) : FilledIn s (fillIn s) :=
  ⟨_, _, _, _, _, _, fills_resolveBytes _ _ _, fills_resolveBytes _ _ _, fills_resolveBytes _ _ _, fillsWord_resolve _ _,
    fillsWord_resolve _ _, fillsWord_resolve _ _, rfl⟩

/-! ### An operation sees the same in the filled-in state -/

theorem fillIn_ctBytes (s : State) : (fillIn s).ctBytes = s.ctBytes := by
  rw [State.ctBytes, fillIn_ct, resolveBytes_knownBytes]

theorem fillIn_keyBytes (s : State) : (fillIn s).keyBytes = s.keyBytes := by
  rw [State.keyBytes, fillIn_key, resolveBytes_knownBytes]

theorem fillIn_prefixBytes (s : State) : (fillIn s).prefixBytes = s.prefixBytes := by
  rw [State.prefixBytes, fillIn_prefixReg, resolveBytes_knownBytes]

theorem fillIn_cntValue (s : State) : (fillIn s).cntValue = s.cntValue := by
  rw [State.cntValue, fillIn_cnt, Data.resolve_known]

theorem fillIn_floorValue (s : State) : (fillIn s).floorValue = s.floorValue := by
  rw [State.floorValue, fillIn_floor, Data.resolve_known]

theorem fillIn_lfsrValue (s : State) : (fillIn s).lfsrValue = s.lfsrValue := by
  rw [State.lfsrValue, fillIn_lfsr, Data.resolve_known]

theorem cdCandidate_ctBytes (s : State) : s.cdCandidate.ctBytes = s.ctBytes := by
  rw [State.ctBytes, State.ctBytes, State.cdCandidate_ct, State.cdCandidate_draws]

theorem lfCandidate_ctBytes (s : State) : s.lfCandidate.ctBytes = s.ctBytes := by
  rw [State.ctBytes, State.ctBytes, State.lfCandidate_ct, State.lfCandidate_draws]

theorem fillIn_verdict (s : State) : (fillIn s).verdict = s.verdict :=
  State.verdict_congr (fillIn_ctBytes s) (fillIn_keyBytes s)

theorem fillIn_cdCandidate_verdict (s : State) : (fillIn s).cdCandidate.verdict = s.cdCandidate.verdict := by
  apply State.verdict_congr
  · rw [cdCandidate_ctBytes, cdCandidate_ctBytes, fillIn_ctBytes]
  · rw [Laws.cdCandidate_keyBytes, Laws.cdCandidate_keyBytes, fillIn_prefixBytes, fillIn_cntValue]

theorem fillIn_lfCandidate_verdict (s : State) : (fillIn s).lfCandidate.verdict = s.lfCandidate.verdict := by
  apply State.verdict_congr
  · rw [lfCandidate_ctBytes, lfCandidate_ctBytes, fillIn_ctBytes]
  · rw [Laws.lfCandidate_keyBytes, Laws.lfCandidate_keyBytes, fillIn_prefixBytes, fillIn_lfsrValue]

/-! ### The control registers after each operation -/

theorem oracle_sameControl_fillIn (s : State) : SameControl s.oracle (fillIn s).oracle := by
  simp [SameControl, State.oracle_state, State.oracle_cause, State.oracle_mode, State.oracle_flags,
    State.oracle_steps, State.oracle_decs, State.oracle_ivlen, State.oracle_ctblks, fillIn_verdict]

theorem countdownStep_sameControl_fillIn (s : State) : SameControl s.countdownStep (fillIn s).countdownStep := by
  obtain ⟨eflags, esteps, edecs, estate⟩ := s.countdownStep_control
  obtain ⟨eflags', esteps', edecs', estate'⟩ := (fillIn s).countdownStep_control
  simp [SameControl, eflags, esteps, edecs, estate, eflags', esteps', edecs', estate', countdownStep_cause,
    countdownStep_mode, countdownStep_ivlen, countdownStep_ctblks, fillIn_cdCandidate_verdict, fillIn_cntValue,
    fillIn_floorValue]

theorem lfsrStep_sameControl_fillIn (s : State) : SameControl s.lfsrStep (fillIn s).lfsrStep := by
  obtain ⟨eflags, esteps, edecs, estate⟩ := s.lfsrStep_control
  obtain ⟨eflags', esteps', edecs', estate'⟩ := (fillIn s).lfsrStep_control
  simp [SameControl, eflags, esteps, edecs, estate, eflags', esteps', edecs', estate', lfsrStep_cause,
    lfsrStep_mode, lfsrStep_ivlen, lfsrStep_ctblks, fillIn_lfCandidate_verdict]

/-! ### The data registers after each operation -/

/-- An Oracle call over a `⊥` leaves `PT` unspecified and writes no other data register. -/
theorem oracle_of_readsBot {s : State} (h : s.oracleReadsBot = true) :
    s.oracle = { s with
      flags := s.oracle.flags, steps := s.oracle.steps, decs := s.oracle.decs, pt := Vector.replicate 32 (Data.bot 8)
      draws := s.draws + 1 } := by
  simp [State.oracle, h, Laws.botBytes_eq]

/-- A countdown step over a `⊥` leaves `CNT`, `KEY` and `PT` unspecified and writes no other data register. -/
theorem countdownStep_of_readsBot {s : State} (h : s.cdReadsBot = true) :
    s.countdownStep = { s with
      state := s.countdownStep.state, flags := s.countdownStep.flags, steps := s.countdownStep.steps
      decs := s.countdownStep.decs, cnt := Data.bot 64, key := Vector.replicate 16 (Data.bot 8)
      pt := Vector.replicate 32 (Data.bot 8), draws := s.draws + 1 } := by
  rcases s.countdownStep_data with ⟨_, ekey, ecnt, ept, edraws⟩ | ⟨hb, _⟩
  · have hframe := s.countdownStep_frame
    rwa [ekey, ecnt, ept, edraws, Laws.botBytes_eq, Laws.botBytes_eq] at hframe
  · rw [h] at hb; cases hb

/-- An LFSR step over a `⊥` leaves `LFSR`, `KEY` and `PT` unspecified and writes no other data register. -/
theorem lfsrStep_of_readsBot {s : State} (h : s.lfReadsBot = true) :
    s.lfsrStep = { s with
      state := s.lfsrStep.state, flags := s.lfsrStep.flags, steps := s.lfsrStep.steps, decs := s.lfsrStep.decs
      lfsr := Data.bot 40, key := Vector.replicate 16 (Data.bot 8), pt := Vector.replicate 32 (Data.bot 8)
      draws := s.draws + 1 } := by
  rcases s.lfsrStep_data with ⟨_, ekey, elfsr, ept, edraws⟩ | ⟨hb, _⟩
  · have hframe := s.lfsrStep_frame
    rwa [ekey, elfsr, ept, edraws, Laws.botBytes_eq, Laws.botBytes_eq] at hframe
  · rw [h] at hb; cases hb

/-- `TEST` in IDLE with two blocks declared is one Oracle call (R88). -/
theorem exec_test_of_ok {s : State} (idle : s.state = .idle) (hblks : 2 ≤ s.ctblks.toNat) :
    exec .test s = .next s.oracle := by
  simp [exec, execTest, idle, nBlk, hblks]

/-- Settles O32: the run it is compared with is the one on the filled-in state, where the verdict is the same. -/
theorem stepsOverUnspecifiedBytes : Obligations.StepsOverUnspecifiedBytes := by
  refine fun s => ⟨fun idle hblks h => ?_, fun h => ?_, fun h => ?_⟩
  · have hb : s.oracleReadsBot = true := by simpa using mt (Laws.oracleReadsBot_iff s).mp h
    exact ⟨_, _, _, exec_test_of_ok idle hblks, filledIn_fillIn s,
      exec_test_of_ok (by rwa [fillIn_state]) (by rwa [fillIn_ctblks]), oracle_sameControl_fillIn s, oracle_of_readsBot hb⟩
  · have hb : s.cdReadsBot = true := by simpa using mt (Laws.cdReadsBot_iff s).mp h
    exact ⟨_, _, _, rfl, filledIn_fillIn s, rfl, countdownStep_sameControl_fillIn s, countdownStep_of_readsBot hb⟩
  · have hb : s.lfReadsBot = true := by simpa using mt (Laws.lfReadsBot_iff s).mp h
    exact ⟨_, _, _, rfl, filledIn_fillIn s, rfl, lfsrStep_sameControl_fillIn s, lfsrStep_of_readsBot hb⟩

end Sys2Proof.Proofs
end

section
/-! The register window as a memory (20_memory.md): reads of specified bytes, writes in IDLE, the addresses that ignore a
write, and a read after a write; and a step that performs the host transaction at the head of the schedule. -/

namespace Sys2Proof.Proofs

open Sys2Proof Sys2Proof.Machine Sys2Proof.Safety

/-! ### A transaction at the head of the schedule (R50) -/

theorem nextEvent_of_schedule {s : State} {e : Event} {rest : List Event} (h : s.schedule = e :: rest) :
    s.nextEvent = e := by
  simp [State.nextEvent, h]

theorem advance_of_schedule {s : State} {e : Event} {rest : List Event} (h : s.schedule = e :: rest) :
    s.advance = { s with schedule := rest } := by
  simp [State.advance, h]

/-- Settles O4: the head of the schedule is what `select` decodes, and its tail is what `advance` leaves. -/
theorem stepPerformsTheHostTransaction : Obligations.StepPerformsTheHostTransaction := by
  intro s w rest h
  simp only [step, State.select, nextEvent_of_schedule h, advance_of_schedule h]

/-! ### Reads of specified bytes (R42, R43, R47, R140) -/

/-- What a read does: it moves the read-data signal and the free-value index. -/
theorem exec_hrd_frame (s : State) (a : Addr) :
    exec (.hrd a) s = .next { s with rdata := s.hostRead a, draws := (s.afterRead a).draws } := rfl

/-- Settles O11: the frame of a read. -/
theorem hostReadChangesNoRegister : Obligations.HostReadChangesNoRegister :=
  fun s a => ⟨_, _, exec_hrd_frame s a⟩

/-- A read of the address of a location that holds a specified datum. -/
theorem exec_hrd_of_specified {s : State} {a : Addr} {l : Loc} (hl : locOf a = l) (h : (s.datumAt l).specified = true) :
    exec (.hrd a) s = .next { s with rdata := (s.datumAt l).value } :=
  exec_hrd_of_known (by rw [hl]; exact Data.eq_known h)

/-- Settles O7: the register map takes each base and index to that element of its array. -/
theorem hostReadReturnsArrayBytes : Obligations.HostReadReturnsArrayBytes := by
  refine fun s => ⟨fun i h => ?iv, fun i h => ?ct, fun i h => ?key, fun i h => ?pt, fun i h => ?prefixReg⟩
  case iv => exact exec_hrd_of_specified (locOf_iv i) h
  case ct => exact exec_hrd_of_specified (locOf_ct i) h
  case key => exact exec_hrd_of_specified (locOf_key i) h
  case pt => exact exec_hrd_of_specified (locOf_pt i) h
  case prefixReg => exact exec_hrd_of_specified (locOf_prefixReg i) h

/-- Byte `j` of a specified 64-bit register, counted from the most significant (R43(d)). -/
theorem byteBE64_of_specified {d : Data 64} (h : d.specified = true) (j : Fin 8) :
    d.byteBE64 j = Data.known (d.value.extractLsb' (56 - 8 * j.val) 8) := by
  simp [Data.byteBE64, h]

theorem byteBE40_of_specified {d : Data 40} (h : d.specified = true) (j : Fin 5) :
    d.byteBE40 j = Data.known (d.value.extractLsb' (32 - 8 * j.val) 8) := by
  simp [Data.byteBE40, h]

/-- Settles O8: each register's bytes stand in the window in the order of `be64` and `be40`. -/
theorem hostReadReturnsIntegersBigEndian : Obligations.HostReadReturnsIntegersBigEndian := by
  refine fun s j => ⟨fun h => ?cnt, fun h => ?floor, fun h hj => ?lfsr, ?steps, ?decs⟩ <;> apply exec_hrd_of_known
  case cnt => rw [locOf_cnt]; exact byteBE64_of_specified h j
  case floor => rw [locOf_floor]; exact byteBE64_of_specified h j
  case lfsr => rw [locOf_lfsr ⟨j.val, hj⟩]; exact byteBE40_of_specified h ⟨j.val, hj⟩
  case steps => rw [locOf_steps]; exact congrArg Data.known (be64_getElem s.steps j.val j.isLt)
  case decs => rw [locOf_decs]; exact congrArg Data.known (be64_getElem s.decs j.val j.isLt)

/-! ### Data writes (R48, R49, R141) -/

/-- At every address but 0x00 a write is a data write. -/
theorem exec_hwr_of_ne_cmd {a : Addr} (h : locOf a ≠ .cmd) (s : State) (v : Byte) :
    exec (.hwr a v) s = .next (s.dataWrite (locOf a) v) := by
  simp [exec, execHwr, h]

/-- In IDLE a write to the address of a W-IDLE location is a store. -/
theorem exec_hwr_of_idle {s : State} {a : Addr} {l : Loc} (idle : s.state = .idle) (hl : locOf a = l)
    (hw : l.hostWritable = true) (v : Byte) : exec (.hwr a v) s = .next (s.store l v) := by
  subst hl
  have hcmd : locOf a ≠ .cmd := fun h => by rw [h] at hw; cases hw
  rw [exec_hwr_of_ne_cmd hcmd, State.dataWrite, if_pos hw, if_pos idle]

/-- A write to any other address but `CMD` does nothing, in every `STATE`. -/
theorem exec_hwr_of_not_writable {a : Addr} (hcmd : a ≠ 0x00) (hw : ¬ WritableAddr a) (s : State) (v : Byte) :
    exec (.hwr a v) s = .next s := by
  rw [exec_hwr_of_ne_cmd (mt (locOf_eq_cmd_iff a).mp hcmd), State.dataWrite,
    if_neg (mt (locOf_hostWritable_iff a).mp hw)]

/-- Settles O13: a store at each W-IDLE location of the register map. -/
theorem hostWriteStoresInIdle : Obligations.HostWriteStoresInIdle := by
  refine fun s v idle => ⟨?ivlen, ?ctblks, fun i => ?iv, fun i => ?ct, fun i => ?key⟩
  case ivlen => exact exec_hwr_of_idle (l := .ivlen) idle (by decide) rfl v
  case ctblks => exact exec_hwr_of_idle (l := .ctblks) idle (by decide) rfl v
  case iv => exact exec_hwr_of_idle idle (locOf_iv i) rfl v
  case ct => exact exec_hwr_of_idle idle (locOf_ct i) rfl v
  case key => exact exec_hwr_of_idle idle (locOf_key i) rfl v

/-- Settles O15: no reserved or read-only address is `CMD` or a W-IDLE address. -/
theorem reservedAndReadOnlyAddressesAreInert : Obligations.ReservedAndReadOnlyAddressesAreInert := by
  refine fun s a v => ⟨fun hres => ⟨hostReadOfCmdAndReservedIsZero s a (.inr hres), ?reserved⟩, fun hro => ?readOnly⟩
  case reserved =>
    unfold ReservedAddr at hres
    exact exec_hwr_of_not_writable (by rintro rfl; simp at hres) (by unfold WritableAddr; omega) s v
  case readOnly =>
    exact exec_hwr_of_not_writable (by rintro rfl; simp at hro) (by unfold WritableAddr; omega) s v

/-! ### A read after a write (R42, R47, R49) -/

/-- A store makes the datum at its own location the byte stored. -/
theorem datumAt_store_same {l : Loc} (hw : l.hostWritable = true) (s : State) (v : Byte) :
    (s.store l v).datumAt l = Data.known v := by
  cases l with
  | ivlen | ctblks => rfl
  | iv i | ct i | key i => simp [State.store, State.datumAt]
  | _ => cases hw

/-- A store leaves the datum at every other location alone. -/
theorem datumAt_store_of_ne {l m : Loc} (hne : m ≠ l) (s : State) (v : Byte) :
    (s.store l v).datumAt m = s.datumAt m := by
  cases l with
  | ivlen => cases m with
    | ivlen => exact absurd rfl hne
    | _ => rfl
  | ctblks => cases m with
    | ctblks => exact absurd rfl hne
    | _ => rfl
  | iv i => cases m with
    | iv j => exact Vector.getElem_set_ne i.isLt j.isLt fun h => hne (congrArg Loc.iv (Fin.ext h.symm))
    | _ => rfl
  | ct i => cases m with
    | ct j => exact Vector.getElem_set_ne i.isLt j.isLt fun h => hne (congrArg Loc.ct (Fin.ext h.symm))
    | _ => rfl
  | key i => cases m with
    | key j => exact Vector.getElem_set_ne i.isLt j.isLt fun h => hne (congrArg Loc.key (Fin.ext h.symm))
    | _ => rfl
  | _ => rfl

/-- The window address of a W-IDLE location (R42). -/
def writableAddrOf : Loc → Addr
  | .ivlen => 0x05
  | .ctblks => 0x06
  | .iv i => BitVec.ofNat 8 (0x10 + i.val)
  | .ct i => BitVec.ofNat 8 (0x20 + i.val)
  | .key i => BitVec.ofNat 8 (0x40 + i.val)
  | _ => 0x00

theorem writableAddrOf_locOf {a : Addr} (h : (locOf a).hostWritable = true) : writableAddrOf (locOf a) = a := by
  revert a; decide +kernel

/-- No two addresses name the same W-IDLE location. -/
theorem eq_of_locOf_eq {a b : Addr} (h : (locOf a).hostWritable = true) (e : locOf b = locOf a) : b = a := by
  rw [← writableAddrOf_locOf h, ← e, writableAddrOf_locOf (e ▸ h)]

/-- A read sees the datum at its location and the free-value index, and nothing else. -/
theorem exec_hrd_congr {s t : State} {a : Addr} (hdatum : t.datumAt (locOf a) = s.datumAt (locOf a))
    (hdraws : t.draws = s.draws) :
    exec (.hrd a) t = .next { t with rdata := s.hostRead a, draws := (s.afterRead a).draws } := by
  rw [exec_hrd_frame, State.hostRead, State.hostRead, State.afterRead_draws, State.afterRead_draws, hdatum, hdraws]

/-- Settles O16: the state after the write is the store, which changes the datum at one location, and that location has one
address. -/
theorem hostReadAfterWrite : Obligations.HostReadAfterWrite := by
  intro s a v idle ha
  have hw : (locOf a).hostWritable = true := (locOf_hostWritable_iff a).mpr ha
  have hdraws : (s.store (locOf a) v).draws = s.draws := by rw [State.store_frame]
  refine ⟨s.store (locOf a) v, exec_hwr_of_idle idle rfl hw v, exec_hrd_of_known (datumAt_store_same hw s v),
    fun b hb => ⟨_, _, ?_, exec_hrd_frame s b⟩⟩
  exact exec_hrd_congr (datumAt_store_of_ne (fun e => hb (eq_of_locOf_eq hw e)) s v) hdraws

end Sys2Proof.Proofs
end

section
/-! The three formats of 30_encoding.md: what a host word decodes to, read as a number, and that decoding and encoding agree. -/

namespace Sys2Proof.Proofs

open Sys2Proof Sys2Proof.Laws

/-! ### Host words as numbers (R61) -/

/-- `WE`, the topmost of the 17 bits, divides the words by size. -/
theorem we_eq_decide (w : HostWord) : w.getLsbD 16 = decide (2 ^ 16 ≤ w.toNat) :=
  (BitVec.msb_eq_getLsbD_last w).symm.trans (BitVec.msb_eq_decide w)

theorem decodeHt_of_lt {w : HostWord} (h : w.toNat < 2 ^ 16) : decodeHt w = .hrd (BitVec.ofNat 8 (w.toNat / 2 ^ 8)) := by
  have hwe : w.getLsbD 16 = false := by rw [we_eq_decide]; exact decide_eq_false (by omega)
  simp only [decodeHt, hwe, BitVec.extractLsb', Nat.shiftRight_eq_div_pow, Bool.false_eq_true, if_false]

theorem decodeHt_of_ge {w : HostWord} (h : 2 ^ 16 ≤ w.toNat) :
    decodeHt w = .hwr (BitVec.ofNat 8 (w.toNat / 2 ^ 8)) (BitVec.ofNat 8 w.toNat) := by
  have hwe : w.getLsbD 16 = true := by rw [we_eq_decide]; exact decide_eq_true h
  simp only [decodeHt, hwe, BitVec.extractLsb', Nat.shiftRight_eq_div_pow, Nat.pow_zero, Nat.div_one, if_true]

/-- Settles O2: of a read the number keeps its address and loses the low byte; of a write it keeps address, data and `WE`. -/
theorem encodingADecodedHostWordClearsOnlyReadData : Obligations.EncodingADecodedHostWordClearsOnlyReadData := by
  intro w
  have := w.isLt
  split
  next h => rw [decodeHt_of_lt h]; simp only [encode, BitVec.toNat_ofNat]; omega
  next h => rw [decodeHt_of_ge (by omega)]; simp only [encode, BitVec.toNat_ofNat]; omega

/-! ### Decoding an encoding (R61 to R64) -/

/-- The encoding of an operation is a number of the width of its format. -/
theorem encode_lt : ∀ i : Instr, encode i < 2 ^ i.format.bits
  | .hrd a => EncodeFits.hrd a
  | .hwr a v => EncodeFits.hwr a v
  | .nop => EncodeFits.nop
  | .initCd => EncodeFits.initCd
  | .initLf => EncodeFits.initLf
  | .step => EncodeFits.step
  | .run => EncodeFits.run
  | .stop => EncodeFits.stop
  | .test => EncodeFits.test
  | .clear => EncodeFits.clear
  | .cdStep => EncodeFits.cdStep
  | .lfStep => EncodeFits.lfStep

theorem decodeHt_readWord (a : Addr) : decodeHt (readWord a) = .hrd a := by
  have ha := a.isLt
  have hw : (readWord a).toNat = a.toNat * 2 ^ 8 := Nat.mod_eq_of_lt (encode_lt (.hrd a))
  rw [decodeHt_of_lt (by omega), hw, Nat.mul_div_cancel _ (by decide), BitVec.ofNat_toNat, BitVec.setWidth_eq]

theorem decodeHt_writeWord (a : Addr) (v : Byte) : decodeHt (writeWord a v) = .hwr a v := by
  have ha := a.isLt
  have hv := v.isLt
  have hw : (writeWord a v).toNat = 2 ^ 16 + a.toNat * 2 ^ 8 + v.toNat := Nat.mod_eq_of_lt (encode_lt (.hwr a v))
  rw [decodeHt_of_ge (by omega), hw]
  congr 1 <;> apply BitVec.eq_of_toNat_eq <;> rw [BitVec.toNat_ofNat] <;> omega

/-- Within its own format every operation is read back, the two host transactions with their fields. -/
theorem decodeWord_encode (i : Instr) : decodeWord i.format (encode i) = .ok i := by
  unfold decodeWord
  rw [if_pos (encode_lt i)]
  cases i with
  | hrd a => exact congrArg Except.ok (decodeHt_readWord a)
  | hwr a v => exact congrArg Except.ok (decodeHt_writeWord a v)
  | nop | initCd | initLf | step | run | stop | test | clear | cdStep | lfStep => rfl

/-- Settles O1: an operation is well-formed in its own format only. -/
theorem everyFormatDecodesItsEncoding : Obligations.EveryFormatDecodesItsEncoding := by
  intro f i hi
  have hf : i.format = f := eq_of_beq hi
  rw [← hf, decodeWord_encode]

/-- Settles O3: the decoder run on seventeen numbers. -/
theorem writtenOutWordsDecode : Obligations.WrittenOutWordsDecode := by
  unfold Obligations.WrittenOutWordsDecode
  decide

end Sys2Proof.Proofs
end

section
/-! The turn of the engine (R64, R148), and that from every state of the invariant a step goes on. -/

namespace Sys2Proof.Proofs

open Sys2Proof Sys2Proof.Machine Sys2Proof.Safety

/-! ### A step, event by event (R50) -/

theorem step_of_transaction {s : State} {w : HostWord} (he : s.nextEvent = .transaction w) :
    step s = exec (decodeHt w) s.advance := by
  simp [step, State.select, he]

theorem step_of_rst {s : State} (he : s.nextEvent = .rst) : step s = .next s.advance.applyReset := by
  simp [step, State.select, he]

section EngineTurn
variable {s : State} (he : s.nextEvent = .engineTurn)
include he

theorem step_of_engineTurn_countdown (run : s.state = .run) (mode : s.mode = .countdown) :
    step s = exec .cdStep s.advance := by
  simp [step, State.select, he, State.engineSelects, run, mode, Mode.code, decodeEs]

theorem step_of_engineTurn_lfsr (run : s.state = .run) (mode : s.mode = .lfsr) : step s = exec .lfStep s.advance := by
  simp [step, State.select, he, State.engineSelects, run, mode, Mode.code, decodeEs]

theorem step_of_engineTurn_none (run : s.state = .run) (mode : s.mode = .none) :
    step s = .refused .modeSelectsNothing := by
  simp [step, State.select, he, State.engineSelects, run, mode, Mode.code, decodeEs]

theorem step_of_engineTurn_not_run (notRun : s.state ≠ .run) : step s = .next s.advance := by
  simp [step, State.select, he, State.engineSelects, notRun]

end EngineTurn

/-- Settles O5: on both ways to a turn of the engine the next event is one, and `advance` leaves the state that is named. -/
theorem stepPerformsTheSelectedEngineStep : Obligations.StepPerformsTheSelectedEngineStep := by
  intro s t ht
  have turn : s.nextEvent = .engineTurn ∧ s.advance = t := by
    rcases ht with ⟨rest, hs, rfl⟩ | ⟨hs, rfl⟩
    · exact ⟨nextEvent_of_schedule hs, advance_of_schedule hs⟩
    · simp [State.nextEvent, State.advance, hs]
  obtain ⟨he, rfl⟩ := turn
  exact ⟨step_of_engineTurn_countdown he, step_of_engineTurn_lfsr he, step_of_engineTurn_none he,
    step_of_engineTurn_not_run he⟩

/-! ### No refusal in a state of the invariant (R64, R190) -/

/-- While a search exists `MODE` selects a step (R24). -/
theorem mode_ne_none {s : State} (h : Inv s) (hs : searchExists s.state = true) : s.mode ≠ .none := by
  obtain ⟨_, _, hmode, _, _⟩ := h.control
  exact hmode.mpr hs

/-- An operation other than a host write refuses only as `STEP` in PAUSED with `MODE` 0. -/
theorem exec_next_of_not_hwr {i : Instr} (hi : ∀ a v, i ≠ .hwr a v) {s : State}
    (h : s.state = .paused → s.mode ≠ .none) : ∃ t, exec i s = .next t := by
  cases i with
  | hwr a v => exact absurd rfl (hi a v)
  | step =>
    by_cases paused : s.state = .paused
    · cases hm : s.mode with
      | none => exact absurd hm (h paused)
      | countdown => exact ⟨s.countdownStep, by simp [exec, execStep, paused, State.selectedStep, hm]⟩
      | lfsr => exact ⟨s.lfsrStep, by simp [exec, execStep, paused, State.selectedStep, hm]⟩
    · exact ⟨s.dropCommand, if_neg paused⟩
  | hrd | nop | initCd | initLf | run | stop | test | clear | cdStep | lfStep => exact ⟨_, rfl⟩

/-- A host write performs a command, or is dropped, or is a data write. -/
theorem exec_next {i : Instr} {s : State} (h : s.state = .paused → s.mode ≠ .none) : ∃ t, exec i s = .next t := by
  by_cases hi : ∃ a v, i = .hwr a v
  · obtain ⟨a, v, rfl⟩ := hi
    rcases execHwr_cases a v s with ⟨c, _, e⟩ | e | e
    · rw [e]; exact exec_next_of_not_hwr (by cases c <;> simp [Command.toInstr]) h
    · exact ⟨_, e⟩
    · exact ⟨_, e⟩
  · exact exec_next_of_not_hwr (fun a v e => hi ⟨a, v, e⟩) h

theorem exec_next_of_inv {s : State} (h : Inv s) (i : Instr) : ∃ t, exec i s = .next t :=
  exec_next fun paused => mode_ne_none h (by rw [paused]; rfl)

/-- Settles O57: each event goes on, an engine step in RUN since the invariant gives it a mode. -/
theorem theMachineAlwaysGoesOn : Obligations.TheMachineAlwaysGoesOn := by
  refine ⟨fun _ r => (nomatch r), fun s h => ?_⟩
  cases he : s.nextEvent with
  | transaction w => rw [step_of_transaction he]; exact exec_next_of_inv (inv_advance h) _
  | rst => exact ⟨_, step_of_rst he⟩
  | engineTurn =>
    by_cases run : s.state = .run
    · cases hm : s.mode with
      | none => exact absurd hm (mode_ne_none h (by rw [run]; rfl))
      | countdown => exact ⟨_, step_of_engineTurn_countdown he run hm⟩
      | lfsr => exact ⟨_, step_of_engineTurn_lfsr he run hm⟩
    · exact ⟨_, step_of_engineTurn_not_run he run⟩

end Sys2Proof.Proofs
end

section
/-! The Oracle (40_oracle.md): which bytes are printable, and what `TEST` does when its operands are specified. -/

namespace Sys2Proof.Proofs

open Sys2Proof Sys2Proof.Machine Sys2Proof.Safety

/-! ### Printable bytes (R80) -/

/-- A bit of a byte as a digit of its number. -/
theorem getLsbD_iff_div_mod (b : Byte) (i : Nat) : b.getLsbD i = true ↔ b.toNat / 2 ^ i % 2 = 1 := by
  rw [BitVec.getLsbD, Nat.testBit_eq_decide_div_mod_eq, decide_eq_true_iff]

/-- Bit 7 clear says below 0x80, bits 6:5 not both clear says 0x20 or above (R80). -/
theorem printable_iff_bits (b : Byte) :
    printable b = true ↔ b.getLsbD 7 = false ∧ (b.getLsbD 6 = true ∨ b.getLsbD 5 = true) ∧ b ≠ 0x7F := by
  have hb := b.isLt
  have hdel : b ≠ 0x7F ↔ b.toNat ≠ 0x7F := BitVec.toNat_inj.not.symm
  rw [printable_iff_toNat, hdel, ← Bool.not_eq_true, getLsbD_iff_div_mod, getLsbD_iff_div_mod, getLsbD_iff_div_mod]
  omega

/-- The printable byte values are an interval of 95 numbers (R80). -/
theorem filter_printable_eq_Icc :
    (Finset.univ.filter fun n : Fin 256 => printable (BitVec.ofNat 8 n.val) = true) = Finset.Icc 0x20 0x7E := by
  ext n
  have hn : (BitVec.ofNat 8 n.val).toNat = n.val := Nat.mod_eq_of_lt n.isLt
  simp only [Finset.mem_filter_univ, Finset.mem_Icc, printable_iff_toNat, hn]
  rfl

/-- Settles O28: the range, its three bits and its length; a block is scanned to its end. -/
theorem printableIsTheRange20To7E : Obligations.PrintableIsTheRange20To7E := by
  refine ⟨fun b => ⟨printable_iff_toNat b, printable_iff_bits b⟩, ?_, blockOk_iff_forall⟩
  rw [filter_printable_eq_Icc, Fin.card_Icc]
  rfl

/-! ### The three cases of `TEST` (R88, R191) -/

theorem exec_test_of_missing_block {s : State} (idle : s.state = .idle) (hblks : s.ctblks.toNat < 2) :
    exec .test s = .next s.raiseInvalidInputLength := by
  simp [exec, execTest, idle, nBlk, hblks.not_ge]

theorem exec_test_of_not_idle {s : State} (busy : s.state ≠ .idle) : exec .test s = .next s.dropCommand := by
  simp [exec, execTest, busy]

/-- What the Oracle finds in `TEST`, when `KEY` and `CT` are specified: the row of R87 for `KEY`. -/
theorem test_verdictRow {s : State} (h : TestSpecified s) : Laws.verdictRow s.verdict = row s (keyValue s) := by
  obtain ⟨hkey, hct⟩ := h
  exact Laws.verdictRow_verdict (Laws.keyBytes_eq hkey) hct

/-- An Oracle call on specified operands has the outcome of R87's table and writes nothing else (R83, R86). -/
theorem oracle_of_testSpecified {s : State} (h : TestSpecified s) :
    s.oracle = { s with
      steps := s.steps + 1
      decs := s.decs + (row s (keyValue s)).decs
      flags := { s.flags with acc := (row s (keyValue s)).acc, b1dec := (row s (keyValue s)).b1dec }
      pt := (row s (keyValue s)).pt } := by
  have hbot : s.oracleReadsBot = false := (Laws.oracleReadsBot_iff s).mpr h
  simp [State.oracle, hbot, ← test_verdictRow h, Flags.setVerdict]

/-- Settles O29: of the three cases of `TEST`, the Oracle call is the row of the table for `KEY`. -/
theorem testCallsTheOracleOnce : Obligations.TestCallsTheOracleOnce := by
  refine ⟨rfl, fun s => ⟨exec_test_of_not_idle, exec_test_of_missing_block, fun idle hblks h => ?_⟩⟩
  rw [exec_test_of_ok idle hblks, oracle_of_testSpecified h]

end Sys2Proof.Proofs
end

section
/-! `INIT_CD` and `INIT_LF` over a written `IV`, and the span of the range `INIT_CD` sets up. -/

namespace Sys2Proof.Proofs

open Sys2Proof Sys2Proof.Machine Sys2Proof.Safety

/-! ### The input check (R191) -/

/-- What fails the input check: an `IV` too long, or a ciphertext block missing. -/
theorem not_inputsOk {s : State} {max : Nat} (h : max < s.ivlen.toNat ∨ s.ctblks.toNat < 2) :
    ¬ s.inputsOk max = true := by
  rw [s.inputsOk_iff]; omega

/-! ### What is written when `IV[0..IVLEN)` is (R100 to R103, R122) -/

/-- What `prefixReg` becomes: `IV[0..L)`, then 0xFF (R100). -/
theorem knownBytes_mkPrefix {iv : Vector (Data 8) 16} {len : Nat} (h : SpecifiedOn iv 0 len) :
    knownBytes (mkPrefix (valuesOf iv) len) =
      Vector.ofFn fun i : Fin 16 => if i.val < len then iv[i] else { value := 0xFF, specified := true } := by
  ext i hi : 1
  rw [knownBytes_getElem, mkPrefix_getElem, Vector.getElem_ofFn]
  by_cases hlen : i < len
  · rw [if_pos hlen, if_pos hlen, valuesOf_getElem]
    exact (Data.eq_known (h ⟨i, hi⟩ (Nat.zero_le _) hlen)).symm
  · rw [if_neg hlen, if_neg hlen]; rfl

/-- The eight bytes of `CEILING(L)` or `FLOORVAL(L)`, most significant first, determine it (R101, R102). -/
theorem unbe64_ivSuffix_eq {iv : Vector (Data 8) 16} {len : Nat} {missing : Byte} {c : BitVec 64}
    (h : ∀ j : Fin 8, c.extractLsb' (56 - 8 * j.val) 8 =
      if 8 + j.val < len then (iv[8 + j.val]'(by omega)).value else missing) :
    unbe64 (ivSuffix (valuesOf iv) len missing) = c := by
  refine eq_of_bytes_eq fun j => ?_
  rw [h j, unbe64_byte, ivSuffix_getElem, valuesOf_getElem]

/-- Settles O23: each of the three cases of the command, the search being set up byte by byte. -/
theorem initCdSetsUpTheCountdown : Obligations.InitCdSetsUpTheCountdown := by
  refine fun s => ⟨exec_initCd_of_not_idle, fun idle bad => exec_initCd_of_illegal_length idle (not_inputsOk bad), ?_⟩
  intro c f idle hlen hblks hiv hc hf
  have hk : knownRange s.iv 0 s.ivlen.toNat = true := (knownRange_iff _ _ _).mpr hiv
  have hceil : ceilingVal (valuesOf s.iv) s.ivlen.toNat = c := unbe64_ivSuffix_eq hc
  have hfloor : floorVal (valuesOf s.iv) s.ivlen.toNat = f := unbe64_ivSuffix_eq hf
  rw [exec_initCd_of_ok idle ((s.inputsOk_iff ivMax).mpr ⟨hlen, hblks⟩)]
  simp only [State.initCountdown, hk, bytesOrBot_true, wordOrBot_true, knownBytes_mkPrefix hiv, hceil, hfloor]
  rfl

/-- Settles O24: each of the three cases of the command, the register seeded with 1. -/
theorem initLfSetsUpTheLfsr : Obligations.InitLfSetsUpTheLfsr := by
  refine fun s => ⟨exec_initLf_of_not_idle, fun idle bad => exec_initLf_of_illegal_length idle (not_inputsOk bad), ?_⟩
  intro idle hlen hblks hiv
  have hk : knownRange s.iv 0 s.ivlen.toNat = true := (knownRange_iff _ _ _).mpr hiv
  rw [exec_initLf_of_ok idle ((s.inputsOk_iff lfPrefix).mpr ⟨hlen, hblks⟩)]
  simp only [State.initLfsr, hk, bytesOrBot_true, wordOrBot_true, knownBytes_mkPrefix hiv]
  rfl

/-! ### The span of the range (R102) -/

/-- Byte by byte the ceiling is the floor where the `IV` gives the byte, and 255 above it where it does not. -/
theorem ceiling_byte_eq (iv : Bytes 16) (len : Nat) (j : Fin 8) :
    (ivSuffix iv len fill)[j].toNat =
      (ivSuffix iv len floorFill)[j].toNat + if j.val < max len 8 - 8 then 0 else 255 := by
  rw [ivSuffix_getElem, ivSuffix_getElem]
  by_cases h : 8 + j.val < len
  · rw [if_pos h, if_pos h, if_pos (by omega), Nat.add_zero]
  · rw [if_neg h, if_neg h, if_neg (by omega)]; rfl

/-- The bytes the `IV` does not give make up the whole distance: `k` of the eight bytes are known. -/
theorem ceilingVal_toNat (iv : Bytes 16) {len k : Nat} (hk : max len 8 = 8 + k) (hle : k ≤ 8) :
    (ceilingVal iv len).toNat = (floorVal iv len).toNat + (2 ^ (8 * (8 - k)) - 1) := by
  have hbyte := ceiling_byte_eq iv len
  rw [hk, Nat.add_sub_cancel_left] at hbyte
  have h0 := hbyte 0; have h1 := hbyte 1; have h2 := hbyte 2; have h3 := hbyte 3
  have h4 := hbyte 4; have h5 := hbyte 5; have h6 := hbyte 6; have h7 := hbyte 7
  simp only [Fin.getElem_fin, Fin.isValue, Fin.coe_ofNat_eq_mod, Nat.reduceMod] at h0 h1 h2 h3 h4 h5 h6 h7
  rw [ceilingVal, floorVal, unbe64_toNat, unbe64_toNat, h0, h1, h2, h3, h4, h5, h6, h7]
  interval_cases k <;> simp only [Nat.reduceLT, Nat.not_lt_zero, if_true, if_false] <;> ring

/-- Settles O40: with `k = max(L, 8) - 8` of the eight bytes known, the other `8 - k` span the range. -/
theorem floorAndCeilingSpanTheUnknownBytes : Obligations.FloorAndCeilingSpanTheUnknownBytes := by
  intro iv len hlen
  refine ⟨floorVal_le_ceilingVal iv len, ?_⟩
  have hk : max len 8 = 8 + (max len 8 - 8) := by omega
  rw [ceilingVal_toNat iv hk (by omega), Nat.add_sub_cancel_left, show 8 - (max len 8 - 8) = 16 - max len 8 by omega]

end Sys2Proof.Proofs
end

section
/-! The enumerator steps over specified operands (R105, R124), and runs of several steps. -/

namespace Sys2Proof.Proofs

open Sys2Proof Sys2Proof.Machine Sys2Proof.Safety

/-! ### One countdown step (R104, R105) -/

/-- A countdown step over specified operands is one row of R87 for its candidate, and a move of `CNT` and `STATE`. -/
theorem countdownStep_of_specified {s : State} (h : CdSpecified s) :
    s.countdownStep = { s with
      key := (cdKey s).map Data.known
      steps := s.steps + 1
      decs := s.decs + (row s (cdKey s)).decs
      flags := { s.flags with acc := (row s (cdKey s)).acc, b1dec := (row s (cdKey s)).b1dec }
      pt := (row s (cdKey s)).pt
      cnt := if (row s (cdKey s)).acc then s.cnt else { value := s.cnt.value - 1, specified := true }
      state := if (row s (cdKey s)).acc then .found
        else if s.cnt.value = s.floor.value then .exhausted else s.state } := by
  have ⟨hpfx, hcnt, hfloor, _⟩ := h
  have hc : s.cntValue = s.cnt.value := Data.resolve_of_specified hcnt _
  have hf : s.floorValue = s.floor.value := Data.resolve_of_specified hfloor _
  obtain ⟨eflags, esteps, edecs, estate⟩ := s.countdownStep_control
  rcases s.countdownStep_data with ⟨hb, _⟩ | ⟨_, ekey, ecnt, ept, edraws⟩
  · rw [(Laws.cdReadsBot_iff s).mpr h] at hb; cases hb
  · rw [s.countdownStep_frame, eflags, esteps, edecs, estate, ekey, ecnt, ept, edraws, hc, hf, State.cdCandidate_key,
      Laws.cdKey_eq hpfx hcnt, ← Laws.map_known, ← Laws.cdCandidate_verdictRow h]
    rfl

/-- Settles O30: the effect of a countdown step. -/
theorem cdStepTestsOneCandidate : Obligations.CdStepTestsOneCandidate :=
  fun _ h => congrArg Host.Outcome.next (countdownStep_of_specified h)

/-! ### One LFSR step (R123, R124) -/

/-- An LFSR step over specified operands is one row of R87 for the candidate of the successor (R124). -/
theorem lfsrStep_of_specified {s : State} (h : LfSpecified s) :
    s.lfsrStep = { s with
      lfsr := { value := lfsrNext s.lfsr.value, specified := true }
      key := (lfKey s (lfsrNext s.lfsr.value)).map Data.known
      steps := s.steps + 1
      decs := s.decs + (row s (lfKey s (lfsrNext s.lfsr.value))).decs
      flags := { s.flags with
        acc := (row s (lfKey s (lfsrNext s.lfsr.value))).acc, b1dec := (row s (lfKey s (lfsrNext s.lfsr.value))).b1dec }
      pt := (row s (lfKey s (lfsrNext s.lfsr.value))).pt
      state := if (row s (lfKey s (lfsrNext s.lfsr.value))).acc then .found else s.state } := by
  have ⟨hpfx, hlfsr, _⟩ := h
  have hr : s.lfsrValue = s.lfsr.value := Data.resolve_of_specified hlfsr _
  obtain ⟨eflags, esteps, edecs, estate⟩ := s.lfsrStep_control
  rcases s.lfsrStep_data with ⟨hb, _⟩ | ⟨_, ekey, elfsr, ept, edraws⟩
  · rw [(Laws.lfReadsBot_iff s).mpr h] at hb; cases hb
  · rw [s.lfsrStep_frame, eflags, esteps, edecs, estate, ekey, elfsr, ept, edraws, State.lfCandidate_key,
      State.lfCandidate_lfsr, Laws.lfKey_eq hpfx hlfsr, hr, ← Laws.map_known, ← Laws.lfCandidate_verdictRow h]
    rfl

/-! ### Steps and runs (R50) -/

/-- A step takes the event off the schedule (R50). -/
theorem schedule_of_step {s t : State} {e : Event} {rest : List Event} (hs : s.schedule = e :: rest)
    (h : step s = .next t) : t.schedule = rest := by
  rw [(step_world h).1, advance_of_schedule hs]

theorem run_succ_of_step {s t : State} (h : step s = .next t) (n : Nat) : core.run (n + 1) s = core.run n t := by
  have hstep : core.step s = .next t := h
  simp only [Host.Core.run, hstep]

theorem run_one (s : State) : core.run 1 s = step s := by
  cases h : step s with
  | next t => exact run_succ_of_step h 0
  | fault r => cases r
  | refused r =>
    have hstep : core.step s = .refused r := h
    simp only [Host.Core.run, hstep]
    rfl

/-- One step more after a run. -/
theorem run_succ_of_run {s t : State} {n : Nat} (h : core.run n s = .next t) : core.run (n + 1) s = step t := by
  induction n generalizing s with
  | zero => cases h; exact run_one _
  | succ n ih =>
    cases hs : step s with
    | next u =>
      rw [run_succ_of_step hs] at h ⊢
      exact ih h
    | fault r => cases r
    | refused r =>
      have hstep : core.step s = .refused r := hs
      simp only [Host.Core.run, hstep] at h
      cases h

end Sys2Proof.Proofs
end

section
/-! Countdown searches left to the engine (R105, R106): in which order candidates are tested, and how the search ends. -/

namespace Sys2Proof.Proofs

open Sys2Proof Sys2Proof.Machine Sys2Proof.Safety

/-! ### Turns of the engine (R148) -/

/-- The event that comes next, and those after it, depend on the events to come and the number of the round only. -/
theorem nextEvent_congr {s t : State} (h : s.schedule = t.schedule) : s.nextEvent = t.nextEvent := by
  rw [State.nextEvent, State.nextEvent, h]

theorem advance_world_congr {s t : State} (h : s.schedule = t.schedule) (hr : s.rounds = t.rounds) :
    s.advance.schedule = t.advance.schedule ∧ s.advance.rounds = t.advance.rounds := by
  cases ht : t.schedule with
  | nil => simp [State.advance, h, ht, hr]
  | cons e rest => simp [State.advance, h, ht, hr]

/-- The last of `n + 1` turns comes after the first `n`. -/
theorem engineTurnsNext_succ {n : Nat} {s : State} (h : EngineTurnsNext (n + 1) s) :
    EngineTurnsNext n s ∧ (State.advance^[n] s).nextEvent = .engineTurn := by
  induction n generalizing s with
  | zero => exact ⟨trivial, h.1⟩
  | succ n ih =>
    obtain ⟨hnext, hrest⟩ := h
    obtain ⟨hturns, hlast⟩ := ih hrest
    exact ⟨⟨hnext, hturns⟩, by rwa [Function.iterate_succ_apply]⟩

/-! ### Candidates (R104) -/

/-- The candidate that a countdown in `s` has at the counter value `c`. -/
def cdKeyAt (s : State) (c : BitVec 64) : Block := cdKey { s with cnt := { value := c, specified := true } }

theorem cdKey_eq_cdKeyAt {s t : State} {c : BitVec 64} (hpfx : t.prefixReg = s.prefixReg)
    (hcnt : t.cnt = { value := c, specified := true }) : cdKey t = cdKeyAt s c := by
  simp only [cdKeyAt, cdKey, hpfx, hcnt]

/-- The counter after one more candidate. -/
theorem sub_ofNat_sub_one (c : BitVec 64) (n : Nat) : c - BitVec.ofNat 64 n - 1 = c - BitVec.ofNat 64 (n + 1) := by
  rw [BitVec.ofNat_add, sub_sub]; rfl

/-- The counter is at the floor after as many candidates as lie between, and not before. -/
theorem sub_ofNat_eq_floor_iff {c f : BitVec 64} {n : Nat} (hle : f ≤ c) (hn : n ≤ c.toNat - f.toNat) :
    c - BitVec.ofNat 64 n = f ↔ n = c.toNat - f.toNat := by
  have := c.isLt
  rw [← BitVec.toNat_inj, BitVec.toNat_sub, BitVec.toNat_ofNat, Nat.mod_eq_of_lt (a := n) (by omega)]
  rw [BitVec.le_def] at hle
  omega

/-! ### A search after `n` rejections -/

/-- The countdown that `s` began, in `t`, after `n` turns of the engine with a rejection each. -/
structure AfterRejections (s : State) (c : BitVec 64) (n : Nat) (t : State) : Prop where
  state : t.state = .run
  mode : t.mode = .countdown
  cause : t.cause = s.cause
  schedule : t.schedule = (State.advance^[n] s).schedule
  rounds : t.rounds = (State.advance^[n] s).rounds
  cnt : t.cnt = { value := c - BitVec.ofNat 64 n, specified := true }
  floor : t.floor = s.floor
  prefixReg : t.prefixReg = s.prefixReg
  ct : t.ct = s.ct
  steps : t.steps = s.steps + BitVec.ofNat 64 n
  key : ∀ m : Nat, n = m + 1 → t.key = (cdKeyAt s (c - BitVec.ofNat 64 m)).map Data.known

theorem afterRejections_zero {s : State} {c : BitVec 64} (run : s.state = .run) (mode : s.mode = .countdown)
    (hcnt : s.cnt = { value := c, specified := true }) : AfterRejections s c 0 s where
  state := run
  mode := mode
  cause := rfl
  schedule := rfl
  rounds := rfl
  cnt := by simp [hcnt]
  floor := rfl
  prefixReg := rfl
  ct := rfl
  steps := by simp
  key := nofun

section Search
variable {s : State} {c f : BitVec 64} (hct : SpecifiedOn s.ct 0 32) (hpfx : SpecifiedOn s.prefixReg 0 8)
  (hfloor : s.floor = { value := f, specified := true })
include hct hpfx hfloor

/-- The next turn of the engine tests the candidate `k` at `CNT - n`. -/
theorem step_of_afterRejections {n : Nat} {t : State} {k : Block} (h : AfterRejections s c n t)
    (hturn : (State.advance^[n] s).nextEvent = .engineTurn) (hk : cdKeyAt s (c - BitVec.ofNat 64 n) = k) :
    step t = .next { t.advance with
      key := k.map Data.known
      steps := s.steps + BitVec.ofNat 64 (n + 1)
      decs := t.decs + (row s k).decs
      flags := { t.flags with acc := (row s k).acc, b1dec := (row s k).b1dec }
      pt := (row s k).pt
      cnt := if (row s k).acc then { value := c - BitVec.ofNat 64 n, specified := true }
        else { value := c - BitVec.ofNat 64 (n + 1), specified := true }
      state := if (row s k).acc then .found else if c - BitVec.ofNat 64 n = f then .exhausted else .run } := by
  have hcnt : t.advance.cnt = { value := c - BitVec.ofNat 64 n, specified := true } := t.advance_cnt.trans h.cnt
  have hfl : t.advance.floor = { value := f, specified := true } := t.advance_floor.trans (h.floor.trans hfloor)
  have hfv : t.advance.floor.value = f := congrArg Data.value hfl
  have hp : t.advance.prefixReg = s.prefixReg := t.advance_prefixReg.trans h.prefixReg
  have hc : t.advance.ct = s.ct := t.advance_ct.trans h.ct
  have hspec : CdSpecified t.advance := ⟨hp ▸ hpfx, by rw [hcnt], by rw [hfl], hc ▸ hct⟩
  have hstep : step t = .next t.advance.countdownStep :=
    step_of_engineTurn_countdown ((nextEvent_congr h.schedule).trans hturn) h.state h.mode
  have hsteps : t.advance.steps + 1 = s.steps + BitVec.ofNat 64 (n + 1) := by
    rw [t.advance_steps, h.steps, BitVec.ofNat_add, BitVec.add_assoc]; rfl
  rw [hstep, countdownStep_of_specified hspec, cdKey_eq_cdKeyAt hp hcnt, hk, Laws.row_congr hc, hsteps, t.advance_decs,
    t.advance_flags, hfv, hcnt, sub_ofNat_sub_one, t.advance_state, h.state]

/-- A rejection above the floor leaves the search running, one candidate further down. -/
theorem afterRejections_succ {n : Nat} {t : State} (h : AfterRejections s c n t)
    (hturn : (State.advance^[n] s).nextEvent = .engineTurn) (hrej : Rejects s (cdKeyAt s (c - BitVec.ofNat 64 n)))
    (hne : c - BitVec.ofNat 64 n ≠ f) : ∃ u, step t = .next u ∧ AfterRejections s c (n + 1) u := by
  have hworld := advance_world_congr h.schedule h.rounds
  rw [← Function.iterate_succ_apply' State.advance] at hworld
  unfold Rejects at hrej
  refine ⟨_, step_of_afterRejections hct hpfx hfloor h hturn rfl, ?_⟩
  simp only [hrej, hne, Bool.false_eq_true, if_false]
  exact {
    state := rfl
    mode := t.advance_mode.trans h.mode
    cause := t.advance_cause.trans h.cause
    schedule := hworld.1
    rounds := hworld.2
    cnt := rfl
    floor := t.advance_floor.trans h.floor
    prefixReg := t.advance_prefixReg.trans h.prefixReg
    ct := t.advance_ct.trans h.ct
    steps := rfl
    key := fun m hm => by cases hm; rfl }

/-- As long as the candidates are rejected above the floor the search goes on (R106). -/
theorem run_rejections {n : Nat} (hturns : EngineTurnsNext n s) (run : s.state = .run) (mode : s.mode = .countdown)
    (hcnt : s.cnt = { value := c, specified := true }) (hle : f ≤ c) (hn : n ≤ c.toNat - f.toNat)
    (hrej : ∀ k : Nat, k < n → Rejects s (cdKeyAt s (c - BitVec.ofNat 64 k))) :
    ∃ t, core.run n s = .next t ∧ AfterRejections s c n t := by
  induction n with
  | zero => exact ⟨s, rfl, afterRejections_zero run mode hcnt⟩
  | succ n ih =>
    obtain ⟨hfirst, hturn⟩ := engineTurnsNext_succ hturns
    obtain ⟨t, ht, h⟩ := ih hfirst (by omega) fun k hk => hrej k (by omega)
    have hne : c - BitVec.ofNat 64 n ≠ f := fun e => by
      have := (sub_ofNat_eq_floor_iff hle (by omega)).mp e
      omega
    obtain ⟨u, hu, h'⟩ := afterRejections_succ hct hpfx hfloor h hturn (hrej n (by omega)) hne
    exact ⟨u, (run_succ_of_run ht).trans hu, h'⟩

end Search

/-- Settles O41: the state after `n` rejections, by induction on `n`. -/
theorem countdownTestsInDescendingOrder : Obligations.CountdownTestsInDescendingOrder := by
  intro s c f n hturns run mode hct hpfx hcnt hfloor hle hn hrej
  obtain ⟨t, ht, h⟩ := run_rejections hct hpfx hfloor hturns run mode hcnt hle hn hrej
  exact ⟨t, ht, h.state, h.mode, h.schedule, h.rounds, h.cnt, h.floor, h.prefixReg, h.ct, h.steps, h.key⟩

/-- Settles O42: after `CNT - FLOOR` rejections the counter is at the floor, and the last rejection ends the search. -/
theorem countdownEndsExhausted : Obligations.CountdownEndsExhausted := by
  intro s c f hturns run mode hct hpfx hcnt hfloor hle hrej
  obtain ⟨hfirst, hturn⟩ := engineTurnsNext_succ hturns
  obtain ⟨t, ht, h⟩ :=
    run_rejections hct hpfx hfloor hfirst run mode hcnt hle (Nat.le_refl _) fun k hk => hrej k hk.le
  have hend : c - BitVec.ofNat 64 (c.toNat - f.toNat) = f := (sub_ofNat_eq_floor_iff hle (Nat.le_refl _)).mpr rfl
  have hlast : (row s (cdKeyAt s f)).acc = false := hend ▸ hrej _ (Nat.le_refl _)
  refine ⟨_, (run_succ_of_run ht).trans (step_of_afterRejections hct hpfx hfloor h hturn (congrArg _ hend)), ?_⟩
  rw [← sub_ofNat_sub_one, hend]
  simp only [hlast, Bool.false_eq_true, if_false, if_true, t.advance_cause, h.cause, and_self]

/-- Settles O43: after `k` rejections the next candidate is the accepted one. -/
theorem countdownFindsTheHighestAcceptedSuffix : Obligations.CountdownFindsTheHighestAcceptedSuffix := by
  intro s c f k hturns run mode hct hpfx hcnt hfloor hle hk hrej key hkey hacc
  obtain ⟨hfirst, hturn⟩ := engineTurnsNext_succ hturns
  obtain ⟨t, ht, h⟩ := run_rejections hct hpfx hfloor hfirst run mode hcnt hle hk hrej
  have hacc : (row s key).acc = true := Bool.eq_true_of_not_eq_false hacc
  refine ⟨_, (run_succ_of_run ht).trans (step_of_afterRejections hct hpfx hfloor h hturn hkey.symm), ?_⟩
  simp only [hacc, if_true, and_self]

end Sys2Proof.Proofs
end

section
/-! Searches beside a host (R107, R148): what a transaction in RUN leaves alone, and that it makes no difference to the engine. -/

namespace Sys2Proof.Proofs

open Sys2Proof Sys2Proof.Machine Sys2Proof.Safety

/-! ### Transactions outside IDLE and PAUSED (R142, R195, R229) -/

/-- The opcode of `STOP` is 0x05 (R63). -/
theorem decodeCommand_eq_stop {v : Byte} (h : decodeCommand v = .ok .stop) : v = 0x05 := by
  revert v; decide +kernel

/-- A write to `CMD` is a command byte (R141). -/
theorem exec_hwr_cmd (v : Byte) (s : State) : exec (.hwr 0x00 v) s = execCommandByte v s := by
  have hcmd : locOf 0x00 = .cmd := (locOf_eq_cmd_iff 0x00).mpr rfl
  simp only [exec, execHwr, hcmd, if_true]

/-- The opcode of a command written to `CMD` performs it (R142). -/
theorem exec_hwr_of_decodeCommand {v : Byte} {c : Command} (hd : decodeCommand v = .ok c) (s : State) :
    exec (.hwr 0x00 v) s = exec c.toInstr s := by
  rw [exec_hwr_cmd, execCommandByte, hd, ← execCommand_eq_exec]

section Undisturbed
variable {s : State} (notIdle : s.state ≠ .idle) (notPaused : s.state ≠ .paused)
include notIdle

/-- A data write is dropped, or does nothing. -/
theorem dataWrite_of_not_idle (l : Loc) (v : Byte) : s.dataWrite l v = s ∨ s.dataWrite l v = s.dropWrite := by
  rcases s.dataWrite_cases l v with ⟨_, idle, _⟩ | ⟨_, _, e⟩ | ⟨_, e⟩
  · exact absurd idle notIdle
  · exact .inr e
  · exact .inl e

include notPaused

/-- Of the commands only `STOP` and `CLEAR` can end or hold a running search: the others do nothing or are dropped. -/
theorem exec_command_of_busy {c : Command} (hstop : c ≠ .stop) (hclear : c ≠ .clear) :
    exec c.toInstr s = .next s ∨ exec c.toInstr s = .next s.dropCommand := by
  cases c with
  | nop => exact .inl rfl
  | initCd => exact .inr (exec_initCd_of_not_idle notIdle)
  | initLf => exact .inr (exec_initLf_of_not_idle notIdle)
  | step => exact .inr (if_neg notPaused)
  | run =>
    by_cases run : s.state = .run
    · exact .inl (by simp [Command.toInstr, exec, execRun, run])
    · exact .inr (by simp [Command.toInstr, exec, execRun, run, notPaused])
  | stop => exact absurd rfl hstop
  | test => exact .inr (exec_test_of_not_idle notIdle)
  | clear => exact absurd rfl hclear

theorem exec_hwr_of_busy {a : Addr} {v : Byte} (hstop : Instr.hwr a v ≠ .hwr 0x00 0x05)
    (hclear : Instr.hwr a v ≠ .hwr 0x00 0x07) :
    exec (.hwr a v) s = .next s ∨ exec (.hwr a v) s = .next s.dropCommand ∨ exec (.hwr a v) s = .next s.dropWrite := by
  by_cases ha : locOf a = .cmd
  · obtain rfl := (locOf_eq_cmd_iff a).mp ha
    cases hd : decodeCommand v with
    | ok c =>
      rw [exec_hwr_of_decodeCommand hd]
      refine (exec_command_of_busy notIdle notPaused ?_ ?_).imp_right .inl <;> rintro rfl
      · exact hstop (by rw [decodeCommand_eq_stop hd])
      · exact hclear (by rw [decodeCommand_eq_clear hd])
    | error e => exact .inr (.inl (by rw [exec_hwr_cmd, execCommandByte, hd]))
  · rw [exec_hwr_of_ne_cmd ha]
    exact (dataWrite_of_not_idle notIdle (locOf a) v).imp (congrArg _) fun e => .inr (congrArg _ e)

/-- A transaction that is no write of `STOP` or `CLEAR` moves the sticky flags, the read-data signal and the free-value index. -/
theorem exec_transaction_of_busy {w : HostWord} (hw : KeepsSearching (.transaction w)) :
    ∃ (b : Byte) (n : Nat) (c d : Bool), exec (decodeHt w) s = .next { s with
      rdata := b, draws := n, flags := { s.flags with illcmd := c, illwr := d } } := by
  obtain ⟨hstop, hclear⟩ := hw
  rcases decodeHt_cases w with ⟨a, hi⟩ | ⟨a, v, hi⟩ <;> rw [hi] at hstop hclear ⊢
  · exact ⟨_, _, _, _, exec_hrd_frame s a⟩
  · rcases exec_hwr_of_busy notIdle notPaused hstop hclear with e | e | e <;> exact ⟨_, _, _, _, e⟩

end Undisturbed

/-- Settles O47: `step` performs the transaction, which in RUN moves nothing else. -/
theorem transactionsInRunLeaveTheSearchAlone : Obligations.TransactionsInRunLeaveTheSearchAlone := by
  intro s w rest hs run hstop hclear
  rw [stepPerformsTheHostTransaction s w rest hs]
  exact exec_transaction_of_busy (by simp [run]) (by simp [run]) ⟨hstop, hclear⟩

/-! ### States that differ in what a transaction moves -/

/-- `t` is `u` but for the sticky flags, the read-data signal, the free-value index and the events to come. -/
def SameSearch (u t : State) : Prop :=
  ∃ (b : Byte) (n : Nat) (c d : Bool) (l : List Event), t = { u with
    rdata := b, draws := n, flags := { u.flags with illcmd := c, illwr := d }, schedule := l }

theorem SameSearch.trans {s t u : State} (h : SameSearch s t) (h' : SameSearch t u) : SameSearch s u := by
  obtain ⟨_, _, _, _, _, rfl⟩ := h
  obtain ⟨b, n, c, d, l, rfl⟩ := h'
  exact ⟨b, n, c, d, l, rfl⟩

theorem sameSearch_schedule (s : State) (l : List Event) : SameSearch s { s with schedule := l } :=
  ⟨_, _, _, _, _, rfl⟩

theorem SameSearch.state {u t : State} (h : SameSearch u t) : t.state = u.state := by
  obtain ⟨_, _, _, _, _, rfl⟩ := h; rfl

theorem SameSearch.mode {u t : State} (h : SameSearch u t) : t.mode = u.mode := by
  obtain ⟨_, _, _, _, _, rfl⟩ := h; rfl

/-- The next event, taken off. -/
theorem SameSearch.rest {u t : State} (h : SameSearch u t) (l m : List Event) :
    SameSearch { u with schedule := l } { t with schedule := m } := by
  obtain ⟨b, n, c, d, _, rfl⟩ := h
  exact ⟨b, n, c, d, m, rfl⟩

theorem SameSearch.eq {u t : State} (h : SameSearch u t) (hs : t.schedule = u.schedule) :
    t = { u with
      flags := { u.flags with illcmd := t.flags.illcmd, illwr := t.flags.illwr }, rdata := t.rdata, draws := t.draws } := by
  obtain ⟨_, _, _, _, _, rfl⟩ := h
  cases hs; rfl

/-! ### The engine step over specified operands -/

/-- The operands of the step that `MODE` selects hold specified values. -/
def OperandsSpecified (s : State) : Prop := (s.mode = .countdown ∧ CdSpecified s) ∨ (s.mode = .lfsr ∧ LfSpecified s)

/-- A search that goes on in RUN over specified operands, or has ended. -/
def Searching (s : State) : Prop := (s.state = .run ∧ OperandsSpecified s) ∨ s.state = .found ∨ s.state = .exhausted

theorem Searching.busy {s : State} (h : Searching s) : s.state ≠ .idle ∧ s.state ≠ .paused := by
  rcases h with ⟨e, _⟩ | e | e <;> simp [e]

theorem countdownStep_keeps_searching {s : State} (run : s.state = .run) (mode : s.mode = .countdown) (h : CdSpecified s) :
    Searching s.countdownStep := by
  have ⟨hpfx, hcnt, hfloor, hct⟩ := h
  have hspec : CdSpecified s.countdownStep := by
    refine ⟨by rwa [countdownStep_prefixReg], ?_, by rwa [countdownStep_floor], by rwa [countdownStep_ct]⟩
    rw [countdownStep_of_specified h]
    dsimp only
    split
    · exact hcnt
    · rfl
  obtain ⟨_, _, _, estate⟩ := s.countdownStep_control
  split_ifs at estate
  · exact .inr (.inl estate)
  · exact .inr (.inr estate)
  · exact .inl ⟨estate.trans run, .inl ⟨by rwa [countdownStep_mode], hspec⟩⟩

theorem lfsrStep_keeps_searching {s : State} (run : s.state = .run) (mode : s.mode = .lfsr) (h : LfSpecified s) :
    Searching s.lfsrStep := by
  have ⟨hpfx, _, hct⟩ := h
  have hspec : LfSpecified s.lfsrStep :=
    ⟨by rwa [lfsrStep_prefixReg], by rw [lfsrStep_of_specified h], by rwa [lfsrStep_ct]⟩
  obtain ⟨_, _, _, estate⟩ := s.lfsrStep_control
  split_ifs at estate
  · exact .inr (.inl estate)
  · exact .inl ⟨estate.trans run, .inr ⟨by rwa [lfsrStep_mode], hspec⟩⟩

/-- What a transaction moves, a step over specified operands does not read. -/
theorem SameSearch.countdownStep {u t : State} (h : SameSearch u t) (hu : CdSpecified u) :
    SameSearch u.countdownStep t.countdownStep := by
  obtain ⟨b, n, c, d, l, rfl⟩ := h
  rw [countdownStep_of_specified hu]
  exact ⟨b, n, c, d, l, countdownStep_of_specified hu⟩

theorem SameSearch.lfsrStep {u t : State} (h : SameSearch u t) (hu : LfSpecified u) :
    SameSearch u.lfsrStep t.lfsrStep := by
  obtain ⟨b, n, c, d, l, rfl⟩ := h
  rw [lfsrStep_of_specified hu]
  exact ⟨b, n, c, d, l, lfsrStep_of_specified hu⟩

/-! ### The two runs side by side -/

/-- A transaction takes the one run further and leaves the search as the other run has it. -/
theorem sameSearch_step_transaction {u t : State} {w : HostWord} {rest : List Event} (h : SameSearch u t)
    (hu : Searching u) (ht : t.schedule = .transaction w :: rest) (hw : KeepsSearching (.transaction w)) :
    ∃ t', step t = .next t' ∧ SameSearch u t' := by
  obtain ⟨notIdle, notPaused⟩ := hu.busy
  rw [← h.state] at notIdle notPaused
  obtain ⟨b, n, c, d, e⟩ := exec_transaction_of_busy (s := { t with schedule := rest }) notIdle notPaused hw
  exact ⟨_, (stepPerformsTheHostTransaction t w rest ht).trans e, h.trans ⟨b, n, c, d, rest, rfl⟩⟩

/-- A turn of the engine takes both runs further in the same way. -/
theorem sameSearch_step_engineTurn {u t : State} {l m : List Event} (h : SameSearch u t) (hu : Searching u)
    (hul : u.schedule = .engineTurn :: l) (htm : t.schedule = .engineTurn :: m) :
    ∃ u' t', step u = .next u' ∧ step t = .next t' ∧ SameSearch u' t' ∧ Searching u' := by
  have hue := nextEvent_of_schedule hul
  have hte := nextEvent_of_schedule htm
  have hadv : SameSearch u.advance t.advance := by
    rw [advance_of_schedule hul, advance_of_schedule htm]; exact h.rest l m
  have ended (notRun : u.state ≠ .run) (hend : Searching u.advance) :
      ∃ u' t', step u = .next u' ∧ step t = .next t' ∧ SameSearch u' t' ∧ Searching u' :=
    ⟨_, _, step_of_engineTurn_not_run hue notRun, step_of_engineTurn_not_run hte (h.state ▸ notRun), hadv, hend⟩
  rcases hu with ⟨run, ⟨mode, hs⟩ | ⟨mode, hs⟩⟩ | found | exhausted
  · have hs' : CdSpecified u.advance := by simpa [CdSpecified] using hs
    exact ⟨_, _, step_of_engineTurn_countdown hue run mode,
      step_of_engineTurn_countdown hte (h.state.trans run) (h.mode.trans mode), hadv.countdownStep hs',
      countdownStep_keeps_searching (u.advance_state.trans run) (u.advance_mode.trans mode) hs'⟩
  · have hs' : LfSpecified u.advance := by simpa [LfSpecified] using hs
    exact ⟨_, _, step_of_engineTurn_lfsr hue run mode,
      step_of_engineTurn_lfsr hte (h.state.trans run) (h.mode.trans mode), hadv.lfsrStep hs',
      lfsrStep_keeps_searching (u.advance_state.trans run) (u.advance_mode.trans mode) hs'⟩
  · exact ended (by simp [found]) (.inr (.inl (u.advance_state.trans found)))
  · exact ended (by simp [exhausted]) (.inr (.inr (u.advance_state.trans exhausted)))

/-- The run with the transactions and the run of the engine's turns alone, event by event of the former. -/
theorem run_interleaved {es rest : List Event} {u t : State} (h : SameSearch u t) (hu : Searching u)
    (hut : u.schedule = engine (es.count .engineTurn) ++ rest) (ht : t.schedule = es ++ rest)
    (hes : ∀ e ∈ es, KeepsSearching e) :
    ∃ t' u', core.run es.length t = .next t' ∧ core.run (es.count .engineTurn) u = .next u' ∧ SameSearch u' t' ∧
      t'.schedule = u'.schedule := by
  induction es generalizing u t with
  | nil => exact ⟨t, u, rfl, rfl, h, ht.trans hut.symm⟩
  | cons e es ih =>
    obtain ⟨he, hrest⟩ := List.forall_mem_cons.mp hes
    cases e with
    | transaction w =>
      rw [List.count_cons_of_ne (by simp)] at hut ⊢
      obtain ⟨t₁, hstep, h₁⟩ := sameSearch_step_transaction h hu ht he
      obtain ⟨t', u', hrun, hrun', hend⟩ := ih h₁ hu hut (schedule_of_step ht hstep) hrest
      exact ⟨t', u', (run_succ_of_step hstep _).trans hrun, hrun', hend⟩
    | engineTurn =>
      rw [List.count_cons_self] at hut ⊢
      obtain ⟨u₁, t₁, hstep', hstep, h₁, hu₁⟩ := sameSearch_step_engineTurn h hu hut ht
      obtain ⟨t', u', hrun, hrun', hend⟩ :=
        ih h₁ hu₁ (schedule_of_step hut hstep') (schedule_of_step ht hstep) hrest
      exact ⟨t', u', (run_succ_of_step hstep _).trans hrun, (run_succ_of_step hstep' _).trans hrun', hend⟩
    | rst => exact he.elim

/-- Settles O48: the two runs start from states that differ in the events to come, and end in step. -/
theorem interleavingDoesNotChangeTheSearch : Obligations.InterleavingDoesNotChangeTheSearch := by
  intro s es rest run hops hes
  obtain ⟨t, u, ht, hu, hsame, hsched⟩ :=
    run_interleaved (u := { s with schedule := engine (es.count .engineTurn) ++ rest })
      (t := { s with schedule := es ++ rest }) (sameSearch_schedule _ _) (.inl ⟨run, hops⟩) rfl rfl hes
  exact ⟨t, u, ht, hu, hsame.eq hsched⟩

end Sys2Proof.Proofs
end

section
/-! Stepping by hand (R107, R144 to R146): it makes no difference whether the host or the engine asks for a step. -/

namespace Sys2Proof.Proofs

open Sys2Proof Sys2Proof.Machine Sys2Proof.Safety

/-! ### Commands as events -/

/-- A command at the head of the schedule is performed (R62, R142). -/
theorem step_of_command {s : State} {c : Command} {rest : List Event}
    (h : s.schedule = .transaction (commandWord c) :: rest) : step s = exec c.toInstr { s with schedule := rest } := by
  have hd : decodeCommand (BitVec.ofNat 8 (encode c.toInstr)) = .ok c := by cases c <;> rfl
  rw [stepPerformsTheHostTransaction s _ rest h, commandWord, decodeHt_writeWord, exec_hwr_of_decodeCommand hd]

/-- `STEP` in PAUSED performs the step that `MODE` selects (R144). -/
theorem exec_step_of_paused {s : State} (paused : s.state = .paused) : exec .step s = s.selectedStep := if_pos paused

theorem selectedStep_countdown {s : State} (mode : s.mode = .countdown) : s.selectedStep = .next s.countdownStep := by
  simp only [State.selectedStep, mode]

theorem selectedStep_lfsr {s : State} (mode : s.mode = .lfsr) : s.selectedStep = .next s.lfsrStep := by
  simp only [State.selectedStep, mode]

theorem mode_eq_of_ne_none {m : Mode} (h : m ≠ .none) : m = .countdown ∨ m = .lfsr := by
  cases m with
  | none => exact absurd rfl h
  | countdown => exact .inl rfl
  | lfsr => exact .inr rfl

/-- `STOP` in RUN pauses, and elsewhere does nothing (R146). -/
theorem exec_stop (s : State) :
    exec .stop s = .next { s with state := if s.state = .run then .paused else s.state } := by
  unfold exec execStop
  dsimp only
  split <;> rfl

/-! ### What a step has to do with `STATE` -/

/-- `f` reads neither `STATE` nor the events to come and leaves the latter alone; on `s` it either sets `STATE` to what `s` alone
determines, which is not RUN, or leaves it as it is. -/
def IgnoresState (f : State → State) (s : State) : Prop :=
  ∃ e : Option ControlState, e ≠ some .run ∧ ∀ (c : ControlState) (l : List Event),
    f { s with state := c, schedule := l } = { f s with state := e.getD c, schedule := l }

section OfState
variable (s : State) (c : ControlState) (l : List Event)

theorem cdCandidate_verdict_of_state :
    (State.cdCandidate { s with state := c, schedule := l }).verdict = s.cdCandidate.verdict := by
  apply State.verdict_congr
  · rw [cdCandidate_ctBytes, cdCandidate_ctBytes]; rfl
  · rw [Laws.cdCandidate_keyBytes, Laws.cdCandidate_keyBytes]; rfl

theorem lfCandidate_verdict_of_state :
    (State.lfCandidate { s with state := c, schedule := l }).verdict = s.lfCandidate.verdict := by
  apply State.verdict_congr
  · rw [lfCandidate_ctBytes, lfCandidate_ctBytes]; rfl
  · rw [Laws.lfCandidate_keyBytes, Laws.lfCandidate_keyBytes]; rfl

theorem cdReadsBot_of_state : State.cdReadsBot { s with state := c, schedule := l } = s.cdReadsBot := by
  simp [State.cdReadsBot, State.oracleReadsBot]

theorem lfReadsBot_of_state : State.lfReadsBot { s with state := c, schedule := l } = s.lfReadsBot := by
  simp [State.lfReadsBot, State.oracleReadsBot]

/-- A countdown step writes the same whatever `STATE` is, but for `STATE` (R105). -/
theorem countdownStep_of_state :
    State.countdownStep { s with state := c, schedule := l } = { s.countdownStep with
      state := (State.countdownStep { s with state := c, schedule := l }).state, schedule := l } := by
  have hframe := State.countdownStep_frame { s with state := c, schedule := l }
  obtain ⟨eflags, esteps, edecs, _⟩ := State.countdownStep_control { s with state := c, schedule := l }
  obtain ⟨eflags', esteps', edecs', _⟩ := s.countdownStep_control
  have hv := cdCandidate_verdict_of_state s c l
  have hb := cdReadsBot_of_state s c l
  rw [s.countdownStep_frame, eflags', esteps', edecs', ← hv, hframe, eflags, esteps, edecs]
  rcases s.countdownStep_data with ⟨b', ekey', ecnt', ept', edraws'⟩ | ⟨b', ekey', ecnt', ept', edraws'⟩ <;>
  rcases State.countdownStep_data { s with state := c, schedule := l } with
    ⟨b, ekey, ecnt, ept, edraws⟩ | ⟨b, ekey, ecnt, ept, edraws⟩
  · rw [ekey, ecnt, ept, edraws, ekey', ecnt', ept', edraws']
  · rw [hb, b'] at b; cases b
  · rw [hb, b'] at b; cases b
  · rw [ekey, ecnt, ept, edraws, ekey', ecnt', ept', edraws', hv]
    rfl

/-- An LFSR step writes the same whatever `STATE` is, but for `STATE` (R124). -/
theorem lfsrStep_of_state :
    State.lfsrStep { s with state := c, schedule := l } = { s.lfsrStep with
      state := (State.lfsrStep { s with state := c, schedule := l }).state, schedule := l } := by
  have hframe := State.lfsrStep_frame { s with state := c, schedule := l }
  obtain ⟨eflags, esteps, edecs, _⟩ := State.lfsrStep_control { s with state := c, schedule := l }
  obtain ⟨eflags', esteps', edecs', _⟩ := s.lfsrStep_control
  have hv := lfCandidate_verdict_of_state s c l
  have hb := lfReadsBot_of_state s c l
  rw [s.lfsrStep_frame, eflags', esteps', edecs', ← hv, hframe, eflags, esteps, edecs]
  rcases s.lfsrStep_data with ⟨b', ekey', elfsr', ept', edraws'⟩ | ⟨b', ekey', elfsr', ept', edraws'⟩ <;>
  rcases State.lfsrStep_data { s with state := c, schedule := l } with
    ⟨b, ekey, elfsr, ept, edraws⟩ | ⟨b, ekey, elfsr, ept, edraws⟩
  · rw [ekey, elfsr, ept, edraws, ekey', elfsr', ept', edraws']
  · rw [hb, b'] at b; cases b
  · rw [hb, b'] at b; cases b
  · rw [ekey, elfsr, ept, edraws, ekey', elfsr', ept', edraws', hv]
    rfl

end OfState

/-- A countdown step ends the search or leaves `STATE` as it is (R105). -/
theorem countdownStep_ignoresState (s : State) : IgnoresState State.countdownStep s := by
  refine ⟨if s.cdCandidate.verdict.acc then some .found else if s.cntValue = s.floorValue then some .exhausted else none,
    by split_ifs <;> simp, fun c l => ?_⟩
  obtain ⟨_, _, _, hstate⟩ := State.countdownStep_control { s with state := c, schedule := l }
  have estate : (State.countdownStep { s with state := c, schedule := l }).state =
      if s.cdCandidate.verdict.acc then .found else if s.cntValue = s.floorValue then .exhausted else c := by
    rw [hstate, cdCandidate_verdict_of_state]; rfl
  rw [countdownStep_of_state, estate]
  by_cases hacc : s.cdCandidate.verdict.acc = true
  · rw [if_pos hacc, if_pos hacc]; rfl
  · rw [if_neg hacc, if_neg hacc]
    by_cases hend : s.cntValue = s.floorValue
    · rw [if_pos hend, if_pos hend]; rfl
    · rw [if_neg hend, if_neg hend]; rfl

/-- An LFSR step ends the search by acceptance or leaves `STATE` as it is (R124). -/
theorem lfsrStep_ignoresState (s : State) : IgnoresState State.lfsrStep s := by
  refine ⟨if s.lfCandidate.verdict.acc then some .found else none, by split_ifs <;> simp, fun c l => ?_⟩
  obtain ⟨_, _, _, estate⟩ := State.lfsrStep_control { s with state := c, schedule := l }
  rw [lfCandidate_verdict_of_state] at estate
  rw [lfsrStep_of_state, estate]
  by_cases hacc : s.lfCandidate.verdict.acc = true
  · rw [if_pos hacc, if_pos hacc]; rfl
  · rw [if_neg hacc, if_neg hacc]; rfl

/-! ### `STEP` against `RUN`, one engine step and `STOP` -/

/-- A step that began in RUN and the same step that began in PAUSED end alike after `STOP`. -/
theorem stop_after_step_in_run {f : State → State} {s : State} (hf : IgnoresState f s) (paused : s.state = .paused)
    (l rest : List Event) :
    exec .stop { f { s with state := .run, schedule := l } with schedule := rest } =
      .next (f { s with schedule := rest }) := by
  obtain ⟨e, hrun, hf⟩ := hf
  have hp : ({ s with schedule := rest } : State) = { s with state := .paused, schedule := rest } := by rw [← paused]
  rw [hp, exec_stop, hf .run l, hf .paused rest]
  cases e with
  | none => rfl
  | some c =>
    have hc : c ≠ .run := fun h => hrun (congrArg some h)
    simp only [Option.getD_some, if_neg hc]

/-- `RUN`, one turn of the engine that performs `f`, and `STOP` amount to `f`. -/
theorem run_engineTurn_stop {f : State → State} {s : State} {rest : List Event} (hf : IgnoresState f s)
    (paused : s.state = .paused)
    (hturn : ∀ {t : State}, t.nextEvent = .engineTurn → t.state = .run → t.mode = s.mode → step t = .next (f t.advance)) :
    core.run 3 { s with schedule := cmd .run ++ engine 1 ++ cmd .stop ++ rest } = .next (f { s with schedule := rest }) := by
  have hrun : step { s with schedule := cmd .run ++ engine 1 ++ cmd .stop ++ rest } =
      .next { s with state := .run, schedule := engine 1 ++ cmd .stop ++ rest } := by
    rw [step_of_command (c := .run) (rest := engine 1 ++ cmd .stop ++ rest) rfl]
    simp only [Command.toInstr, exec, execRun, paused, if_true]
  have hf' : step { s with state := .run, schedule := engine 1 ++ cmd .stop ++ rest } =
      .next (f { s with state := .run, schedule := cmd .stop ++ rest }) := hturn rfl rfl rfl
  rw [run_succ_of_step hrun, run_succ_of_step hf', run_one, step_of_command (c := .stop) (schedule_of_step rfl hf')]
  exact stop_after_step_in_run hf paused _ rest

/-- Settles O49: in either mode the step itself does not depend on `STATE`. -/
theorem steppingEqualsRunningAndStopping : Obligations.SteppingEqualsRunningAndStopping := by
  intro s rest paused hmode
  have hstep : step { s with schedule := cmd .step ++ rest } = State.selectedStep { s with schedule := rest } := by
    rw [step_of_command (c := .step) (rest := rest) rfl]
    exact exec_step_of_paused paused
  rw [run_one, hstep]
  rcases mode_eq_of_ne_none hmode with hm | hm
  · exact (selectedStep_countdown (s := { s with schedule := rest }) hm).trans
      (run_engineTurn_stop (countdownStep_ignoresState s) paused fun he run hmode =>
        step_of_engineTurn_countdown he run (hmode.trans hm)).symm
  · exact (selectedStep_lfsr (s := { s with schedule := rest }) hm).trans
      (run_engineTurn_stop (lfsrStep_ignoresState s) paused fun he run hmode =>
        step_of_engineTurn_lfsr he run (hmode.trans hm)).symm

end Sys2Proof.Proofs
end

section
/-! The LFSR Enumerator (42_lfsr.md): one step of the register, its inverse, and what `LF_STEP` does. -/

namespace Sys2Proof.Proofs

open Sys2Proof Sys2Proof.Machine Sys2Proof.Safety

/-! ### The effect of `LF_STEP` (R123, R124) -/

/-- Settles O31: the effect of an LFSR step. -/
theorem lfStepAdvancesThenTests : Obligations.LfStepAdvancesThenTests :=
  fun _ h => congrArg Host.Outcome.next (lfsrStep_of_specified h)

/-! ### `NEXT` and `PREV` bit by bit (R120, R121, R126) -/

/-- The feedback bit is the XNOR of the taps (R120). -/
theorem lfsrFeedback_eq_xor (x : BitVec 40) :
    lfsrFeedback x = (true ^^ x.getLsbD 0 ^^ x.getLsbD 2 ^^ x.getLsbD 19 ^^ x.getLsbD 21) := by
  simp [lfsrFeedback]

theorem lfsrNext_getLsbD_of_lt (x : BitVec 40) {i : Nat} (hi : i < 39) :
    (lfsrNext x).getLsbD i = x.getLsbD (i + 1) := by
  rw [lfsrNext_getLsbD x i (by omega), if_pos hi]

theorem lfsrNext_getLsbD_top (x : BitVec 40) : (lfsrNext x).getLsbD 39 = lfsrFeedback x := by
  rw [lfsrNext_getLsbD x 39 (by decide), if_neg (by decide)]

/-- Settles O37: the value of each bit of `NEXT`. -/
theorem lfsrNextShiftsInTheXnor : Obligations.LfsrNextShiftsInTheXnor :=
  fun s => ⟨lfsrFeedback_eq_xor s, fun _ hi => lfsrNext_getLsbD_of_lt s hi, lfsrNext_getLsbD_top s⟩

theorem lfsrPrev_getLsbD_succ (t : BitVec 40) {i : Nat} (hi : i < 39) :
    (lfsrPrev t).getLsbD (i + 1) = t.getLsbD i := by
  simp only [lfsrPrev, BitVec.getLsbD_or, BitVec.getLsbD_shiftLeft]
  simp
  omega

/-- `PREV` enters at bit 0 the bit that `NEXT` loses, told from bit 39 and the three other taps (R126(a)). -/
theorem lfsrPrev_getLsbD_zero (t : BitVec 40) :
    (lfsrPrev t).getLsbD 0 = (true ^^ t.getLsbD 39 ^^ t.getLsbD 1 ^^ t.getLsbD 18 ^^ t.getLsbD 20) := by
  simp [lfsrPrev]

theorem lfsrPrev_lfsrNext (x : BitVec 40) : lfsrPrev (lfsrNext x) = x := by
  refine BitVec.eq_of_getLsbD_eq fun i hi => ?_
  cases i with
  | zero =>
    rw [lfsrPrev_getLsbD_zero, lfsrNext_getLsbD_top, lfsrFeedback_eq_xor, lfsrNext_getLsbD_of_lt x (by decide),
      lfsrNext_getLsbD_of_lt x (by decide), lfsrNext_getLsbD_of_lt x (by decide)]
    grind
  | succ i => rw [lfsrPrev_getLsbD_succ _ (by omega), lfsrNext_getLsbD_of_lt x (by omega)]

theorem lfsrNext_lfsrPrev (t : BitVec 40) : lfsrNext (lfsrPrev t) = t := by
  refine BitVec.eq_of_getLsbD_eq fun i hi => ?_
  rcases Nat.lt_or_eq_of_le (Nat.le_of_lt_succ hi) with hi | rfl
  · rw [lfsrNext_getLsbD_of_lt _ hi, lfsrPrev_getLsbD_succ t hi]
  · rw [lfsrNext_getLsbD_top, lfsrFeedback_eq_xor, lfsrPrev_getLsbD_zero, lfsrPrev_getLsbD_succ t (by decide),
      lfsrPrev_getLsbD_succ t (by decide), lfsrPrev_getLsbD_succ t (by decide)]
    grind

theorem lfsrNext_injective : Function.Injective lfsrNext := Function.LeftInverse.injective lfsrPrev_lfsrNext

/-- All bits of a fixed point are its bit 0, and their XNOR is 1. -/
theorem lfsrNext_eq_self_iff (x : BitVec 40) : lfsrNext x = x ↔ x = 0xFFFFFFFFFF#40 := by
  refine ⟨fun h => ?_, fun h => by rw [h]; decide⟩
  have hbit : ∀ i, i < 40 → x.getLsbD i = x.getLsbD 0 := by
    intro i hi
    induction i with
    | zero => rfl
    | succ i ih => rw [← lfsrNext_getLsbD_of_lt x (by omega), h, ih (by omega)]
  have htop : x.getLsbD 39 = true := by
    rw [← h, lfsrNext_getLsbD_top, lfsrFeedback_eq_xor, hbit 2 (by decide), hbit 19 (by decide), hbit 21 (by decide)]
    simp
  have hones : (0xFFFFFFFFFF#40) = BitVec.allOnes 40 := by decide
  refine BitVec.eq_of_getLsbD_eq fun i hi => ?_
  rw [hbit i hi, ← hbit 39 (by decide), htop, hones, BitVec.getLsbD_allOnes, decide_eq_true hi]

/-- Settles O38: `PREV` inverts `NEXT` bit by bit, and the two values are computed. -/
theorem lfsrNextIsABijectionFixingOnlyAllOnes : Obligations.LfsrNextIsABijectionFixingOnlyAllOnes :=
  ⟨fun s => ⟨lfsrPrev_lfsrNext s, lfsrNext_lfsrPrev s⟩, lfsrNext_eq_self_iff, fun _ => eq_allOnes_of_lfsrNext,
    by decide, by decide⟩

end Sys2Proof.Proofs
end

section
/-! LFSR searches left to the engine (R124, R125, R127): in which order candidates are tested, and how the search ends. -/

namespace Sys2Proof.Proofs

open Sys2Proof Sys2Proof.Machine Sys2Proof.Safety

/-- The LFSR search that `s` began, in `t`, after `n` turns of the engine with a rejection each. -/
structure AfterLfsrRejections (s : State) (r : BitVec 40) (n : Nat) (t : State) : Prop where
  state : t.state = .run
  mode : t.mode = .lfsr
  schedule : t.schedule = (State.advance^[n] s).schedule
  rounds : t.rounds = (State.advance^[n] s).rounds
  lfsr : t.lfsr = { value := lfsrNext^[n] r, specified := true }
  prefixReg : t.prefixReg = s.prefixReg
  ct : t.ct = s.ct
  steps : t.steps = s.steps + BitVec.ofNat 64 n
  key : 0 < n → t.key = (lfKey s (lfsrNext^[n] r)).map Data.known

theorem afterLfsrRejections_zero {s : State} {r : BitVec 40} (run : s.state = .run) (mode : s.mode = .lfsr)
    (hlfsr : s.lfsr = { value := r, specified := true }) : AfterLfsrRejections s r 0 s where
  state := run
  mode := mode
  schedule := rfl
  rounds := rfl
  lfsr := hlfsr
  prefixReg := rfl
  ct := rfl
  steps := by simp
  key := nofun

/-- The candidate of a register value depends on `PREFIX` only (R123). -/
theorem lfKey_congr {s t : State} (h : t.prefixReg = s.prefixReg) (x : BitVec 40) : lfKey t x = lfKey s x := by
  simp only [lfKey, h]

section Search
variable {s : State} {r : BitVec 40} (hct : SpecifiedOn s.ct 0 32) (hpfx : SpecifiedOn s.prefixReg 0 11)
include hct hpfx

/-- The next turn of the engine tests the candidate `k` of `NEXT^(n+1)(r)`. -/
theorem step_of_afterLfsrRejections {n : Nat} {t : State} {k : Block} (h : AfterLfsrRejections s r n t)
    (hturn : (State.advance^[n] s).nextEvent = .engineTurn) (hk : lfKey s (lfsrNext^[n + 1] r) = k) :
    step t = .next { t.advance with
      lfsr := { value := lfsrNext^[n + 1] r, specified := true }
      key := k.map Data.known
      steps := s.steps + BitVec.ofNat 64 (n + 1)
      decs := t.decs + (row s k).decs
      flags := { t.flags with acc := (row s k).acc, b1dec := (row s k).b1dec }
      pt := (row s k).pt
      state := if (row s k).acc then .found else .run } := by
  have hlfsr : t.advance.lfsr = { value := lfsrNext^[n] r, specified := true } := t.advance_lfsr.trans h.lfsr
  have hp : t.advance.prefixReg = s.prefixReg := t.advance_prefixReg.trans h.prefixReg
  have hc : t.advance.ct = s.ct := t.advance_ct.trans h.ct
  have hspec : LfSpecified t.advance := ⟨hp ▸ hpfx, by rw [hlfsr], hc ▸ hct⟩
  have hstep : step t = .next t.advance.lfsrStep :=
    step_of_engineTurn_lfsr ((nextEvent_congr h.schedule).trans hturn) h.state h.mode
  have hsteps : t.advance.steps + 1 = s.steps + BitVec.ofNat 64 (n + 1) := by
    rw [t.advance_steps, h.steps, BitVec.ofNat_add, BitVec.add_assoc]; rfl
  rw [hstep, lfsrStep_of_specified hspec, lfKey_congr hp, hlfsr, ← Function.iterate_succ_apply' lfsrNext, hk,
    Laws.row_congr hc, hsteps, t.advance_decs, t.advance_flags, t.advance_state, h.state]

/-- A rejection leaves the search running, one candidate further. -/
theorem afterLfsrRejections_succ {n : Nat} {t : State} (h : AfterLfsrRejections s r n t)
    (hturn : (State.advance^[n] s).nextEvent = .engineTurn) (hrej : Rejects s (lfKey s (lfsrNext^[n + 1] r))) :
    ∃ u, step t = .next u ∧ AfterLfsrRejections s r (n + 1) u := by
  have hworld := advance_world_congr h.schedule h.rounds
  rw [← Function.iterate_succ_apply' State.advance] at hworld
  unfold Rejects at hrej
  refine ⟨_, step_of_afterLfsrRejections hct hpfx h hturn rfl, ?_⟩
  simp only [hrej, Bool.false_eq_true, if_false]
  exact {
    state := rfl
    mode := t.advance_mode.trans h.mode
    schedule := hworld.1
    rounds := hworld.2
    lfsr := rfl
    prefixReg := t.advance_prefixReg.trans h.prefixReg
    ct := t.advance_ct.trans h.ct
    steps := rfl
    key := fun _ => rfl }

/-- As long as the candidates are rejected the search goes on (R127). -/
theorem run_lfsr_rejections {n : Nat} (hturns : EngineTurnsNext n s) (run : s.state = .run) (mode : s.mode = .lfsr)
    (hlfsr : s.lfsr = { value := r, specified := true })
    (hrej : ∀ k : Nat, k < n → Rejects s (lfKey s (lfsrNext^[k + 1] r))) :
    ∃ t, core.run n s = .next t ∧ AfterLfsrRejections s r n t := by
  induction n with
  | zero => exact ⟨s, rfl, afterLfsrRejections_zero run mode hlfsr⟩
  | succ n ih =>
    obtain ⟨hfirst, hturn⟩ := engineTurnsNext_succ hturns
    obtain ⟨t, ht, h⟩ := ih hfirst fun k hk => hrej k (by omega)
    obtain ⟨u, hu, h'⟩ := afterLfsrRejections_succ hct hpfx h hturn (hrej n (by omega))
    exact ⟨u, (run_succ_of_run ht).trans hu, h'⟩

end Search

/-- Settles O44: the state after `n` rejections, by induction on `n`. -/
theorem lfsrSearchFollowsTheSequence : Obligations.LfsrSearchFollowsTheSequence := by
  intro s r n hturns run mode hct hpfx hlfsr hrej
  obtain ⟨t, ht, h⟩ := run_lfsr_rejections hct hpfx hturns run mode hlfsr hrej
  exact ⟨t, ht, h.state, h.mode, h.lfsr, h.steps, h.key⟩

/-- Settles O45: after `k` rejections the next candidate is the accepted one. -/
theorem lfsrSearchEndsAtTheFirstAcceptedCandidate : Obligations.LfsrSearchEndsAtTheFirstAcceptedCandidate := by
  intro s r k hturns run mode hct hpfx hlfsr hrej key hkey hacc
  obtain ⟨hfirst, hturn⟩ := engineTurnsNext_succ hturns
  obtain ⟨t, ht, h⟩ := run_lfsr_rejections hct hpfx hfirst run mode hlfsr hrej
  have hacc : (row s key).acc = true := Bool.eq_true_of_not_eq_false hacc
  refine ⟨_, (run_succ_of_run ht).trans (step_of_afterLfsrRejections hct hpfx h hturn hkey.symm), ?_⟩
  simp only [hacc, if_true, and_self]

end Sys2Proof.Proofs
end

section
/-! The length of the LFSR's cycle (R126(d)): complemented, the register is linear over XOR, so that `2 ^ k` steps are one matrix. -/

namespace Sys2Proof.Proofs

open Sys2Proof Sys2Proof.Machine

/-! ### Maps that respect XOR, as lists of columns -/

/-- Linear over the field of two elements, the register being read as a vector of 40 bits. -/
def XorLinear (f : BitVec 40 → BitVec 40) : Prop := ∀ a b : BitVec 40, f (a ^^^ b) = f a ^^^ f b

theorem XorLinear.map_zero {f : BitVec 40 → BitVec 40} (hf : XorLinear f) : f 0#40 = 0#40 := by
  simpa using hf 0#40 0#40

/-- The XOR of the columns that the bits of `v` select, the first column standing for bit `i`. -/
def xorColumns : List (BitVec 40) → Nat → BitVec 40 → BitVec 40
  | [], _, _ => 0#40
  | c :: cs, i, v => (bif v.getLsbD i then c else 0#40) ^^^ xorColumns cs (i + 1) v

/-- `cols` are the columns of the matrix of `f`. -/
def ColumnsOf (f : BitVec 40 → BitVec 40) (cols : List (BitVec 40)) : Prop := ∀ v, xorColumns cols 0 v = f v

theorem xorColumns_xor (cols : List (BitVec 40)) (i : Nat) (a b : BitVec 40) :
    xorColumns cols i (a ^^^ b) = xorColumns cols i a ^^^ xorColumns cols i b := by
  induction cols generalizing i with
  | nil => simp [xorColumns]
  | cons c cs ih =>
    have hc : (bif a.getLsbD i ^^ b.getLsbD i then c else 0#40) =
        (bif a.getLsbD i then c else 0#40) ^^^ (bif b.getLsbD i then c else 0#40) := by
      cases a.getLsbD i <;> cases b.getLsbD i <;> simp
    rw [xorColumns, xorColumns, xorColumns, ih, BitVec.getLsbD_xor, hc]
    ac_rfl

theorem xorColumns_map {f : BitVec 40 → BitVec 40} (hf : XorLinear f) (cols : List (BitVec 40)) (i : Nat) (v : BitVec 40) :
    xorColumns (cols.map f) i v = f (xorColumns cols i v) := by
  induction cols generalizing i with
  | nil => exact hf.map_zero.symm
  | cons c cs ih =>
    have hc : (bif v.getLsbD i then f c else 0#40) = f (bif v.getLsbD i then c else 0#40) := by
      cases v.getLsbD i with
      | false => exact hf.map_zero.symm
      | true => rfl
    rw [List.map_cons, xorColumns, xorColumns, ih, hc, hf]

/-- The columns of the identity select the bits of `v` one by one. -/
theorem xorColumns_units_getLsbD {i n : Nat} (hw : i + n ≤ 40) (v : BitVec 40) (j : Nat) :
    (xorColumns ((List.range' i n).map (BitVec.twoPow 40)) i v).getLsbD j =
      (decide (i ≤ j ∧ j < i + n) && v.getLsbD j) := by
  induction n generalizing i with
  | zero => simp [xorColumns]
  | succ n ih =>
    have hunit : (bif v.getLsbD i then BitVec.twoPow 40 i else 0#40).getLsbD j = (decide (i = j) && v.getLsbD i) := by
      cases v.getLsbD i <;> simp [BitVec.getLsbD_twoPow, show i < 40 by omega]
    rw [List.range'_succ, List.map_cons, xorColumns, BitVec.getLsbD_xor, hunit, ih (by omega)]
    rcases Nat.lt_trichotomy i j with hlt | rfl | hgt
    · simp [hlt.ne, hlt.le, Nat.succ_le_of_lt hlt, Nat.add_assoc, Nat.add_comm 1 n]
    · simp
    · simp [hgt.ne', hgt.not_ge, show ¬ i + 1 ≤ j by omega]

/-- The columns of the identity. -/
def unitColumns : List (BitVec 40) := (List.range' 0 40).map (BitVec.twoPow 40)

theorem columnsOf_units {f : BitVec 40 → BitVec 40} (hf : XorLinear f) : ColumnsOf f (unitColumns.map f) := by
  intro v
  rw [xorColumns_map hf]
  congr 1
  refine BitVec.eq_of_getLsbD_eq fun j hj => ?_
  rw [unitColumns, xorColumns_units_getLsbD (by decide), decide_eq_true (by omega), Bool.true_and]

/-! ### Iterating by repeated squaring -/

/-- The columns of `f`, `f^[2]`, `f^[4]` and so on, from those of `f`. -/
def squarings : Nat → List (BitVec 40) → List (List (BitVec 40))
  | 0, _ => []
  | k + 1, cols => cols :: squarings k (cols.map (xorColumns cols 0))

/-- Applies of the matrices those that the binary digits of `n` select. -/
def applyBits : List (List (BitVec 40)) → Nat → BitVec 40 → BitVec 40
  | [], _, x => x
  | cols :: rest, n, x => applyBits rest (n / 2) (bif n.testBit 0 then xorColumns cols 0 x else x)

theorem ColumnsOf.square {f : BitVec 40 → BitVec 40} {cols : List (BitVec 40)} (h : ColumnsOf f cols) :
    ColumnsOf f^[2] (cols.map (xorColumns cols 0)) := by
  intro v
  rw [xorColumns_map (xorColumns_xor cols 0), h, h]
  rfl

/-- Square and multiply computes an iterate. -/
theorem ColumnsOf.applyBits_squarings {f : BitVec 40 → BitVec 40} {cols : List (BitVec 40)} (h : ColumnsOf f cols) {k n : Nat}
    (hn : n < 2 ^ k) (x : BitVec 40) : applyBits (squarings k cols) n x = f^[n] x := by
  induction k generalizing f cols n x with
  | zero =>
    obtain rfl : n = 0 := by omega
    rfl
  | succ k ih =>
    rw [squarings, applyBits, ih h.square (by omega), ← Function.iterate_mul]
    have hmod : (bif n.testBit 0 then xorColumns cols 0 x else x) = f^[n % 2] x := by
      rcases Nat.mod_two_eq_zero_or_one n with e | e
      · simp [Nat.testBit_zero, e]
      · simp [Nat.testBit_zero, e, h x]
    rw [hmod, ← Function.iterate_add_apply, Nat.div_add_mod]

/-! ### The complemented register -/

/-- `NEXT` on the complement of the register, which turns its XNOR into an XOR. -/
def nextComplement (y : BitVec 40) : BitVec 40 := ~~~ lfsrNext (~~~ y)

theorem nextComplement_getLsbD (y : BitVec 40) {i : Nat} (hi : i < 40) :
    (nextComplement y).getLsbD i =
      if i < 39 then y.getLsbD (i + 1) else (y.getLsbD 0 ^^ y.getLsbD 2 ^^ y.getLsbD 19 ^^ y.getLsbD 21) := by
  rw [nextComplement, BitVec.getLsbD_not, lfsrNext_getLsbD _ _ hi, lfsrFeedback_eq_xor]
  by_cases h : i < 39
  · simp [h, hi]
  · simp [h, hi]

theorem nextComplement_xor : XorLinear nextComplement := by
  intro a b
  refine BitVec.eq_of_getLsbD_eq fun i hi => ?_
  rw [BitVec.getLsbD_xor, nextComplement_getLsbD _ hi, nextComplement_getLsbD _ hi, nextComplement_getLsbD _ hi]
  simp only [BitVec.getLsbD_xor]
  split
  · rfl
  · simp only [Bool.xor_assoc, Bool.xor_left_comm]

theorem not_lfsrNext_iterate (n : Nat) (x : BitVec 40) : ~~~ lfsrNext^[n] x = nextComplement^[n] (~~~ x) := by
  have h : Function.Semiconj (~~~ ·) lfsrNext nextComplement := fun x => by simp [nextComplement]
  exact h.iterate_right n x

/-- The complemented seed after `n` steps, computed. -/
def seedComplementAfter (n : Nat) : BitVec 40 :=
  applyBits (squarings 40 (unitColumns.map nextComplement)) n (~~~ 1#40)

theorem seedComplementAfter_eq {n : Nat} (hn : n < 2 ^ 40) : seedComplementAfter n = ~~~ lfsrNext^[n] 1#40 := by
  rw [not_lfsrNext_iterate]
  exact (columnsOf_units nextComplement_xor).applyBits_squarings hn _

theorem lfsrNext_isPeriodicPt_iff {n : Nat} (hn : n < 2 ^ 40) :
    Function.IsPeriodicPt lfsrNext n 1#40 ↔ seedComplementAfter n = ~~~ 1#40 := by
  rw [seedComplementAfter_eq hn, BitVec.not_inj]
  rfl

/-! ### The period -/

/-- A period none of whose quotients by a prime is a period is the least one. -/
theorem minimalPeriod_eq_of_not_div_prime {α : Type} {f : α → α} {x : α} {n : Nat} (hx : Function.IsPeriodicPt f n x)
    (hd : ∀ p : Nat, p.Prime → p ∣ n → ¬ Function.IsPeriodicPt f (n / p) x) : Function.minimalPeriod f x = n := by
  obtain ⟨a, rfl⟩ := hx.minimalPeriod_dvd
  by_contra hne
  have ha : a ≠ 1 := fun e => hne (by rw [e, mul_one])
  refine hd a.minFac (Nat.minFac_prime ha) (dvd_mul_of_dvd_right a.minFac_dvd _) ?_
  rw [Nat.mul_div_assoc _ a.minFac_dvd]
  exact (Function.isPeriodicPt_minimalPeriod f x).mul_const _

/-- The prime factors of the length: `2 ^ 40 - 1 = 3 * 5 ^ 2 * 11 * 17 * 31 * 41 * 61681`. -/
theorem mem_of_prime_dvd {p : Nat} (hp : p.Prime) (h : p ∣ 2 ^ 40 - 1) : p ∈ [3, 5, 11, 17, 31, 41, 61681] := by
  have hmem := (Nat.mem_primeFactorsList (by decide)).mpr ⟨hp, h⟩
  simpa [Nat.primeFactorsList_ofNat] using hmem

/-- The seed comes back after `2 ^ 40 - 1` steps, and for no prime `p` after a `p`-th of them. -/
theorem seedComplementAfter_period :
    seedComplementAfter (2 ^ 40 - 1) = ~~~ 1#40 ∧
      ∀ p ∈ [3, 5, 11, 17, 31, 41, 61681], seedComplementAfter ((2 ^ 40 - 1) / p) ≠ ~~~ 1#40 := by
  decide +kernel

theorem minimalPeriod_lfsrNext : Function.minimalPeriod lfsrNext 1#40 = 2 ^ 40 - 1 := by
  obtain ⟨hreturns, hnot⟩ := seedComplementAfter_period
  refine minimalPeriod_eq_of_not_div_prime ((lfsrNext_isPeriodicPt_iff (by decide)).mpr hreturns) fun p hp hdvd h => ?_
  exact hnot p (mem_of_prime_dvd hp hdvd)
    ((lfsrNext_isPeriodicPt_iff ((Nat.div_le_self _ _).trans_lt (by decide))).mp h)

/-! ### Every value but one -/

/-- A cycle that misses one value and has one value less than there are meets all the others. -/
theorem exists_iterate_eq_of_minimalPeriod {α : Type} [Fintype α] {f : α → α} {x z v : α}
    (hcard : Function.minimalPeriod f x + 1 = Fintype.card α) (hz : ∀ n, f^[n] x ≠ z) (hv : v ≠ z) :
    ∃ n < Function.minimalPeriod f x, f^[n] x = v := by
  classical
  have hinj : Set.InjOn (f^[·] x) (Finset.range (Function.minimalPeriod f x)) := by
    simpa [Set.InjOn] using Function.iterate_injOn_Iio_minimalPeriod (f := f) (x := x)
  have hsub : (Finset.range (Function.minimalPeriod f x)).image (f^[·] x) ⊆ Finset.univ.erase z := by
    intro y hy
    obtain ⟨n, _, rfl⟩ := Finset.mem_image.mp hy
    exact Finset.mem_erase.mpr ⟨hz n, Finset.mem_univ _⟩
  have hall := Finset.eq_of_subset_of_card_le hsub (by
    rw [Finset.card_image_of_injOn hinj, Finset.card_range, Finset.card_erase_of_mem (Finset.mem_univ z), Finset.card_univ]
    omega)
  have hmem : v ∈ (Finset.range (Function.minimalPeriod f x)).image (f^[·] x) := by
    rw [hall]; exact Finset.mem_erase.mpr ⟨hv, Finset.mem_univ v⟩
  simpa using hmem

/-- The lock-up value is never reached from the seed (R126(b)). -/
theorem lfsrNext_iterate_one_ne_allOnes (n : Nat) : lfsrNext^[n] 1#40 ≠ 0xFFFFFFFFFF#40 := by
  induction n with
  | zero => decide
  | succ n ih => rw [Function.iterate_succ_apply']; exact fun h => ih (eq_allOnes_of_lfsrNext h)

theorem card_bitVec40 : Fintype.card (BitVec 40) = 2 ^ 40 :=
  FinEnum.card_eq_fintypeCard.symm.trans (FinEnum.card_bitVec 40)

/-- Settles O39: the cycle of the seed has the greatest length that leaves the lock-up value out. -/
theorem lfsrHasMaximalLength : Obligations.LfsrHasMaximalLength := by
  refine ⟨?_, fun n hpos hlt => ?_, fun v hv => ?_⟩
  · have h := Function.isPeriodicPt_minimalPeriod lfsrNext 1#40
    rwa [minimalPeriod_lfsrNext] at h
  · exact Function.not_isPeriodicPt_of_pos_of_lt_minimalPeriod hpos.ne' (by rwa [minimalPeriod_lfsrNext])
  · have hcard : Function.minimalPeriod lfsrNext 1#40 + 1 = Fintype.card (BitVec 40) := by
      rw [minimalPeriod_lfsrNext, card_bitVec40]; rfl
    have hall := exists_iterate_eq_of_minimalPeriod hcard lfsrNext_iterate_one_ne_allOnes hv
    rwa [minimalPeriod_lfsrNext] at hall

end Sys2Proof.Proofs
end

section
/-! Commands (R142 to R147): the legality table as guards, what a byte written to `CMD` does, and `NOP`, `STEP`, `RUN`, `STOP`,
`CLEAR`. -/

namespace Sys2Proof.Proofs

open Sys2Proof Sys2Proof.Machine Sys2Proof.Safety

/-! ### The legality table read by entry (R142) -/

theorem guard_of_illegal {c : Command} {k : ControlState} (h : legality c k = .illegal) :
    ((c = .initCd ∨ c = .initLf ∨ c = .test) ∧ k ≠ .idle) ∨ (c = .step ∧ k ≠ .paused) ∨
      (c = .run ∧ k ≠ .paused ∧ k ≠ .run) := by
  cases c <;> cases k <;> simp [legality] at h ⊢

theorem guard_of_noOp {c : Command} {k : ControlState} (h : legality c k = .noOp) :
    c = .nop ∨ (c = .run ∧ k = .run) ∨ (c = .stop ∧ k ≠ .run) := by
  cases c <;> cases k <;> simp [legality] at h ⊢

theorem guard_of_executes {c : Command} {k : ControlState} (h : legality c k = .executes) :
    ((c = .initCd ∨ c = .initLf ∨ c = .test) ∧ k = .idle) ∨ ((c = .step ∨ c = .run) ∧ k = .paused) ∨
      (c = .stop ∧ k = .run) ∨ c = .clear := by
  cases c <;> cases k <;> simp [legality] at h ⊢

/-! ### The control commands, case by case (R143 to R147) -/

theorem exec_nop (s : State) : exec .nop s = .next s := rfl

theorem exec_clear (s : State) : exec .clear s = .next s.clearControl := rfl

theorem exec_step_of_not_paused {s : State} (h : s.state ≠ .paused) : exec .step s = .next s.dropCommand := if_neg h

theorem exec_step_of_countdown {s : State} (paused : s.state = .paused) (mode : s.mode = .countdown) :
    exec .step s = .next s.countdownStep :=
  (exec_step_of_paused paused).trans (selectedStep_countdown mode)

theorem exec_step_of_lfsr {s : State} (paused : s.state = .paused) (mode : s.mode = .lfsr) :
    exec .step s = .next s.lfsrStep :=
  (exec_step_of_paused paused).trans (selectedStep_lfsr mode)

theorem exec_step_of_no_mode {s : State} (paused : s.state = .paused) (mode : s.mode = .none) :
    exec .step s = .refused .modeSelectsNothing := by
  rw [exec_step_of_paused paused, State.selectedStep, mode]

theorem exec_run_of_paused {s : State} (paused : s.state = .paused) : exec .run s = .next { s with state := .run } := by
  simp [exec, execRun, paused]

theorem exec_run_of_run {s : State} (run : s.state = .run) : exec .run s = .next s := by
  simp [exec, execRun, run]

theorem exec_run_of_no_search {s : State} (notPaused : s.state ≠ .paused) (notRun : s.state ≠ .run) :
    exec .run s = .next s.dropCommand := by
  simp [exec, execRun, notPaused, notRun]

theorem exec_stop_of_run {s : State} (run : s.state = .run) : exec .stop s = .next { s with state := .paused } := by
  rw [exec_stop, if_pos run]

theorem exec_stop_of_not_run {s : State} (notRun : s.state ≠ .run) : exec .stop s = .next s := by
  rw [exec_stop, if_neg notRun]

/-! ### A byte written to `CMD` (R141, R142) -/

theorem decodeCommand_opcode (c : Command) : decodeCommand (opcode c) = .ok c := by cases c <;> rfl

theorem exec_hwr_opcode (c : Command) (s : State) : exec (.hwr 0x00 (opcode c)) s = exec c.toInstr s :=
  exec_hwr_of_decodeCommand (decodeCommand_opcode c) s

/-- The bytes 0x08 to 0xFF are no commands (R66). -/
theorem decodeCommand_of_ge {v : Byte} (h : 0x08 ≤ v.toNat) : decodeCommand v = .error (.undefinedOpcode v) := by
  unfold decodeCommand
  split
  case h_9 => rfl
  all_goals omega

theorem exec_hwr_undefined {v : Byte} (h : 0x08 ≤ v.toNat) (s : State) : exec (.hwr 0x00 v) s = .next s.dropCommand := by
  rw [exec_hwr_cmd, execCommandByte, decodeCommand_of_ge h]

theorem exec_of_illegal {c : Command} {s : State} (h : legality c s.state = .illegal) :
    exec c.toInstr s = .next s.dropCommand := by
  rcases guard_of_illegal h with ⟨rfl | rfl | rfl, busy⟩ | ⟨rfl, notPaused⟩ | ⟨rfl, notPaused, notRun⟩
  · exact exec_initCd_of_not_idle busy
  · exact exec_initLf_of_not_idle busy
  · exact exec_test_of_not_idle busy
  · exact exec_step_of_not_paused notPaused
  · exact exec_run_of_no_search notPaused notRun

theorem exec_of_noOp {c : Command} {s : State} (h : legality c s.state = .noOp) : exec c.toInstr s = .next s := by
  rcases guard_of_noOp h with rfl | ⟨rfl, run⟩ | ⟨rfl, notRun⟩
  · exact exec_nop s
  · exact exec_run_of_run run
  · exact exec_stop_of_not_run notRun

/-- Settles O17: a write of an opcode to `CMD` is the command, and each entry of the table but "executes" fixes its outcome. -/
theorem commandWritesFollowTheLegalityTable : Obligations.CommandWritesFollowTheLegalityTable := by
  intro s
  refine ⟨fun c => ?_, fun v h => exec_hwr_undefined h s⟩
  rw [exec_hwr_opcode]
  exact ⟨exec_of_illegal, exec_of_noOp, fun _ => rfl⟩

/-- Settles O18: byte 0x00 decodes to `NOP`, whose arm answers the state it is given. -/
theorem nopChangesNothing : Obligations.NopChangesNothing := ⟨rfl, exec_nop⟩

/-- Settles O19: the three cases of `RUN`. -/
theorem runCommandStartsTheEngine : Obligations.RunCommandStartsTheEngine :=
  ⟨rfl, fun _ => ⟨exec_run_of_paused, exec_run_of_run, exec_run_of_no_search⟩⟩

/-- Settles O20: the two cases of `STOP`. -/
theorem stopCommandPausesTheEngine : Obligations.StopCommandPausesTheEngine :=
  ⟨rfl, fun _ => ⟨exec_stop_of_run, exec_stop_of_not_run⟩⟩

/-- Settles O21: `CLEAR` is the return from the exception, in every state. -/
theorem clearCommandReturnsToIdle : Obligations.ClearCommandReturnsToIdle := ⟨rfl, exec_clear⟩

/-! ### `STEP` (R144) -/

/-- A countdown step leaves `STATE`, or ends the search (R105). -/
theorem countdownStep_state_cases (s : State) :
    s.countdownStep.state = s.state ∨ s.countdownStep.state = .found ∨ s.countdownStep.state = .exhausted := by
  obtain ⟨_, _, _, estate⟩ := s.countdownStep_control
  rw [estate]
  split
  · exact .inr (.inl rfl)
  · split
    · exact .inr (.inr rfl)
    · exact .inl rfl

/-- An LFSR step leaves `STATE`, or finds the key (R124, R125). -/
theorem lfsrStep_state_cases (s : State) : s.lfsrStep.state = s.state ∨ s.lfsrStep.state = .found := by
  obtain ⟨_, _, _, estate⟩ := s.lfsrStep_control
  rw [estate]
  split
  · exact .inr rfl
  · exact .inl rfl

theorem countdownStep_steps (s : State) : s.countdownStep.steps = s.steps + 1 :=
  have ⟨_, esteps, _⟩ := s.countdownStep_control
  esteps

theorem lfsrStep_steps (s : State) : s.lfsrStep.steps = s.steps + 1 :=
  have ⟨_, esteps, _⟩ := s.lfsrStep_control
  esteps

/-- Settles O27: in PAUSED `STEP` is the step of the mode, whose effect on `STEPS` and `STATE` is known. -/
theorem stepCommandPerformsTheSelectedStep : Obligations.StepCommandPerformsTheSelectedStep := by
  refine ⟨rfl, fun s => ⟨fun paused mode => ?_, fun paused mode => ?_, exec_step_of_not_paused, exec_step_of_no_mode⟩⟩
  · have e := exec_step_of_countdown paused mode
    exact ⟨e, _, e, countdownStep_steps s, paused ▸ countdownStep_state_cases s⟩
  · have e := exec_step_of_lfsr paused mode
    exact ⟨e, _, e, lfsrStep_steps s, paused ▸ lfsrStep_state_cases s⟩

end Sys2Proof.Proofs
end

section
/-! How `STATE` moves (R149, R150): by the rows of the transition table, and out of a terminal state by `CLEAR` and reset only;
and that each round of the world brings the engine a turn (R148). -/

namespace Sys2Proof.Proofs

open Sys2Proof Sys2Proof.Machine Sys2Proof.Safety

/-! ### The rows of the transition table (R149) -/

/-- Every operation is a read, a write, a command or an engine step (R60). -/
theorem instr_cases (i : Instr) :
    (∃ a, i = .hrd a) ∨ (∃ a v, i = .hwr a v) ∨ (∃ c : Command, i = c.toInstr) ∨ i = .cdStep ∨ i = .lfStep := by
  cases i with
  | hrd a => exact .inl ⟨a, rfl⟩
  | hwr a v => exact .inr (.inl ⟨a, v, rfl⟩)
  | nop => exact .inr (.inr (.inl ⟨.nop, rfl⟩))
  | initCd => exact .inr (.inr (.inl ⟨.initCd, rfl⟩))
  | initLf => exact .inr (.inr (.inl ⟨.initLf, rfl⟩))
  | step => exact .inr (.inr (.inl ⟨.step, rfl⟩))
  | run => exact .inr (.inr (.inl ⟨.run, rfl⟩))
  | stop => exact .inr (.inr (.inl ⟨.stop, rfl⟩))
  | test => exact .inr (.inr (.inl ⟨.test, rfl⟩))
  | clear => exact .inr (.inr (.inl ⟨.clear, rfl⟩))
  | cdStep => exact .inr (.inr (.inr (.inl rfl)))
  | lfStep => exact .inr (.inr (.inr (.inr rfl)))

/-- A command that does not execute has no row, and leaves `STATE`. -/
theorem mayMove_self_of_not_executes {c : Command} {k : ControlState} (h : legality c k ≠ .executes) (m : Mode) :
    mayMove c.toInstr m k k = true := by
  cases c <;> cases k <;> simp [legality, mayMove, Command.toInstr] at h ⊢

/-- The rows of the countdown step, as the engine's and inside `STEP`. -/
theorem mayMove_countdownStep {s : State} (hs : s.state = .run ∨ s.state = .paused) (m : Mode) :
    mayMove .cdStep m s.state s.countdownStep.state = true := by
  rcases hs with hs | hs <;> rcases countdownStep_state_cases s with e | e | e <;> simp [mayMove, e, hs]

theorem mayMove_lfsrStep {s : State} (hs : s.state = .run ∨ s.state = .paused) (m : Mode) :
    mayMove .lfStep m s.state s.lfsrStep.state = true := by
  rcases hs with hs | hs <;> rcases lfsrStep_state_cases s with e | e <;> simp [mayMove, e, hs]

/-- An executing command moves `STATE` by its row. -/
theorem mayMove_of_executes {c : Command} {s t : State} (hx : legality c s.state = .executes)
    (h : exec c.toInstr s = .next t) : mayMove c.toInstr s.mode s.state t.state = true := by
  rcases guard_of_executes hx with ⟨rfl | rfl | rfl, idle⟩ | ⟨rfl | rfl, paused⟩ | ⟨rfl, run⟩ | rfl
  · by_cases ok : s.inputsOk ivMax = true
    · cases (exec_initCd_of_ok idle ok).symm.trans h; simp [Command.toInstr, mayMove, idle]
    · cases (exec_initCd_of_illegal_length idle ok).symm.trans h; simp [Command.toInstr, mayMove, idle]
  · by_cases ok : s.inputsOk lfPrefix = true
    · cases (exec_initLf_of_ok idle ok).symm.trans h; simp [Command.toInstr, mayMove, idle]
    · cases (exec_initLf_of_illegal_length idle ok).symm.trans h; simp [Command.toInstr, mayMove, idle]
  · by_cases missing : s.ctblks.toNat < 2
    · cases (exec_test_of_missing_block idle missing).symm.trans h; simp [Command.toInstr, mayMove, idle]
    · cases (exec_test_of_ok idle (by omega)).symm.trans h; simp [Command.toInstr, mayMove, idle]
  · cases mode : s.mode with
    | none => cases (exec_step_of_no_mode paused mode).symm.trans h
    | countdown =>
      cases (exec_step_of_countdown paused mode).symm.trans h
      rcases countdownStep_state_cases s with e | e | e <;> simp [Command.toInstr, mayMove, paused, e]
    | lfsr =>
      cases (exec_step_of_lfsr paused mode).symm.trans h
      rcases lfsrStep_state_cases s with e | e <;> simp [Command.toInstr, mayMove, paused, e]
  · cases (exec_run_of_paused paused).symm.trans h; simp [Command.toInstr, mayMove, paused]
  · cases (exec_stop_of_run run).symm.trans h; simp [Command.toInstr, mayMove, run]
  · cases (exec_clear s).symm.trans h; simp [Command.toInstr, mayMove]

theorem command_mayMove {c : Command} {s t : State} (h : exec c.toInstr s = .next t) :
    mayMove c.toInstr s.mode s.state t.state = true := by
  cases hl : legality c s.state with
  | executes => exact mayMove_of_executes hl h
  | noOp =>
    cases (exec_of_noOp hl).symm.trans h
    exact mayMove_self_of_not_executes (by simp [hl]) _
  | illegal =>
    cases (exec_of_illegal hl).symm.trans h
    exact mayMove_self_of_not_executes (by simp [hl]) _

/-- Every operation but a host write, which may carry a command of its own row, moves `STATE` by its row. -/
theorem exec_mayMove {i : Instr} {s t : State} (hi : ∀ a v, i ≠ .hwr a v)
    (hengine : i = .cdStep ∨ i = .lfStep → s.state = .run ∨ s.state = .paused) (h : exec i s = .next t) :
    mayMove i s.mode s.state t.state = true := by
  rcases instr_cases i with ⟨a, rfl⟩ | ⟨a, v, rfl⟩ | ⟨c, rfl⟩ | rfl | rfl
  · cases h; simp [mayMove]
  · exact absurd rfl (hi a v)
  · exact command_mayMove h
  · cases h; exact mayMove_countdownStep (hengine (.inl rfl)) _
  · cases h; exact mayMove_lfsrStep (hengine (.inr rfl)) _

/-! ### Writes and events that are no command (R149) -/

theorem dataWrite_state (s : State) (l : Loc) (v : Byte) : (s.dataWrite l v).state = s.state := by
  rcases s.dataWrite_cases l v with ⟨_, _, e⟩ | ⟨_, _, e⟩ | ⟨_, e⟩ <;> rw [e]
  · rw [State.store_frame]
  · exact s.dropWrite_state

/-- A data write, and a byte that is no command, leave `STATE`. -/
theorem hwr_state_of_no_command {a : Addr} {v : Byte} {s t : State} (ha : a ≠ 0x00 ∨ 0x08 ≤ v.toNat)
    (h : exec (.hwr a v) s = .next t) : t.state = s.state := by
  by_cases hcmd : a = 0x00
  · subst hcmd
    cases (exec_hwr_undefined (ha.resolve_left (· rfl)) s).symm.trans h
    exact s.dropCommand_state
  · cases (exec_hwr_of_ne_cmd (mt (locOf_eq_cmd_iff a).mp hcmd) s v).symm.trans h
    exact dataWrite_state s _ v

/-- The engine has the turn at the end of a round and where the round says so (R148). -/
theorem nextEvent_eq_engineTurn {s : State} (h : s.schedule = [] ∨ ∃ rest, s.schedule = .engineTurn :: rest) :
    s.nextEvent = .engineTurn := by
  rcases h with h | ⟨rest, h⟩ <;> simp [State.nextEvent, h]

/-- A turn of the engine performs the countdown step, the LFSR step or nothing. -/
theorem engineTurn_cases {s t : State} (he : s.nextEvent = .engineTurn) (h : step s = .next t) :
    (s.state = .run ∧ s.mode = .countdown ∧ t = s.advance.countdownStep) ∨
      (s.state = .run ∧ s.mode = .lfsr ∧ t = s.advance.lfsrStep) ∨ (s.state ≠ .run ∧ t = s.advance) := by
  rcases step_cases h with ⟨he', _⟩ | ⟨_, notRun, ht⟩ | ⟨_, run, mode, ht⟩ | ⟨_, run, mode, ht⟩ | ⟨w, he', _⟩
  · rw [he] at he'; cases he'
  · exact .inr (.inr ⟨notRun, ht⟩)
  · exact .inl ⟨run, mode, ht⟩
  · exact .inr (.inl ⟨run, mode, ht⟩)
  · rw [he] at he'; cases he'

/-- Settles O54: by the rows of the operations, and for a whole step by what the event performs. -/
theorem stateMovesOnlyByTheTransitionTable : Obligations.StateMovesOnlyByTheTransitionTable := by
  refine ⟨fun _ _ _ => exec_mayMove, fun c s t h => command_mayMove (exec_hwr_opcode c s ▸ h),
    fun _ _ _ _ => hwr_state_of_no_command, fun s t h => ⟨?_, fun hturn => ?_⟩⟩
  · rintro ⟨rest, hs⟩
    cases (step_of_rst (nextEvent_of_schedule hs)).symm.trans h
    rfl
  · rcases engineTurn_cases (nextEvent_eq_engineTurn hturn) h with ⟨run, mode, rfl⟩ | ⟨run, mode, rfl⟩ | ⟨notRun, rfl⟩
    · have hrow := mayMove_countdownStep (s := s.advance) (by simp [run]) s.mode
      exact .inl ⟨run, mode, by rwa [s.advance_state] at hrow⟩
    · have hrow := mayMove_lfsrStep (s := s.advance) (by simp [run]) s.mode
      exact .inr (.inl ⟨run, mode, by rwa [s.advance_state] at hrow⟩)
    · exact .inr (.inr ⟨notRun, s.advance_state⟩)

/-! ### Terminal states (R149, R150, R199) -/

/-- What is neither a reset nor a `CLEAR` leaves a terminal state and its result alone. -/
theorem effect_keeps_terminal {s t : State} (hs : s.state.terminal = true) (e : Effect s t) :
    t.state = s.state ∧ t.key = s.key ∧ t.pt = s.pt := by
  have no {k : ControlState} (hk : k.terminal = false) (h : s.state = k) : False := by rw [h, hk] at hs; cases hs
  cases e with
  | unchanged => exact ⟨rfl, rfl, rfl⟩
  | read a => exact ⟨s.afterRead_state a, s.afterRead_key a, s.afterRead_pt a⟩
  | dropCommand => exact ⟨rfl, rfl, rfl⟩
  | dropWrite => exact ⟨rfl, rfl, rfl⟩
  | store _ _ idle => exact (no rfl idle).elim
  | raise idle => exact (no rfl idle).elim
  | initCountdown idle _ => exact (no rfl idle).elim
  | initLfsr idle _ => exact (no rfl idle).elim
  | test idle => exact (no rfl idle).elim
  | run paused => exact (no rfl paused).elim
  | stop running => exact (no rfl running).elim
  | countdownStep searching _ => exact (searching.elim (no rfl) (no rfl)).elim
  | lfsrStep searching _ => exact (searching.elim (no rfl) (no rfl)).elim

/-- Settles O55: a step is a reset, a `CLEAR` or an effect that needs a state that is not terminal to move anything. -/
theorem terminalStatesEndOnlyByClearOrReset : Obligations.TerminalStatesEndOnlyByClearOrReset := by
  intro s t hs h
  have hterm : s.advance.state.terminal = true := by
    rw [s.advance_state]
    rcases hs with hs | hs | hs <;> rw [hs] <;> rfl
  rcases step_effect h with ⟨hr, rfl⟩ | ⟨hc, rfl⟩ | e
  · exact .inr ⟨.inr hr, rfl, rfl⟩
  · exact .inr ⟨.inl hc, rfl, rfl⟩
  · simpa using Or.inl (effect_keeps_terminal hterm e)

/-! ### Rounds (R148) -/

/-- From a state of the invariant the events left in the round are performed, one a step. -/
theorem run_round {s : State} (hinv : Inv s) :
    ∃ t, core.run s.schedule.length s = .next t ∧ Inv t ∧ t.schedule = [] ∧ t.rounds = s.rounds := by
  generalize hes : s.schedule = es
  induction es generalizing s with
  | nil => exact ⟨s, rfl, hinv, hes, rfl⟩
  | cons e es ih =>
    obtain ⟨u, hu⟩ := theMachineAlwaysGoesOn.2 s hinv
    obtain ⟨t, ht, htinv, htes, htrounds⟩ := ih (everyStepKeepsTheInvariant s u hinv hu) (schedule_of_step hes hu)
    have hrounds : u.rounds = s.rounds := by rw [(step_world hu).2, advance_of_schedule hes]
    exact ⟨t, (run_succ_of_step hu es.length).trans ht, htinv, htes, htrounds.trans hrounds⟩

/-- At the end of a round the next one is taken from the world. -/
theorem advance_of_schedule_nil {s : State} (h : s.schedule = []) :
    s.advance = { s with schedule := Config.eventRound s.rounds, rounds := s.rounds + 1 } := by
  simp [State.advance, h]

/-- In RUN the engine's turn counts one step more (R26). -/
theorem steps_of_engineTurn {s t : State} (he : s.nextEvent = .engineTurn) (run : s.state = .run) (h : step s = .next t) :
    t.steps = s.steps + 1 := by
  rcases engineTurn_cases he h with ⟨_, _, rfl⟩ | ⟨_, _, rfl⟩ | ⟨notRun, _⟩
  · rw [countdownStep_steps, s.advance_steps]
  · rw [lfsrStep_steps, s.advance_steps]
  · exact absurd run notRun

/-- Settles O46: the round is run to its end, and the next event is then the engine's. -/
theorem everyRoundEndsWithATurnOfTheEngine : Obligations.EveryRoundEndsWithATurnOfTheEngine := by
  intro s hinv
  obtain ⟨t, ht, htinv, hend, hrounds⟩ := run_round hinv
  obtain ⟨u, hu⟩ := theMachineAlwaysGoesOn.2 t htinv
  obtain ⟨hes, hnext⟩ := step_world hu
  rw [advance_of_schedule_nil hend] at hes hnext
  exact ⟨t, u, ht, hend, hrounds, hu, everyStepKeepsTheInvariant t u htinv hu,
    fun run => steps_of_engineTurn (nextEvent_eq_engineTurn (.inl hend)) run hu, hes, hnext⟩

end Sys2Proof.Proofs
end

section
/-! What the block drops, ignores and raises: data writes outside IDLE (R195) and InvalidInputLength (R191, R198). -/

namespace Sys2Proof.Proofs

open Sys2Proof Sys2Proof.Machine Sys2Proof.Safety

/-! ### Dropped data writes (R195) -/

/-- A W-IDLE address is never `CMD`, so outside IDLE a write to it is a data write that is dropped. -/
theorem exec_hwr_of_not_idle {s : State} {a : Addr} (busy : s.state ≠ .idle) (ha : WritableAddr a) (v : Byte) :
    exec (.hwr a v) s = .next s.dropWrite := by
  have hw : (locOf a).hostWritable = true := (locOf_hostWritable_iff a).mpr ha
  have hcmd : locOf a ≠ .cmd := fun h => by rw [h] at hw; cases hw
  rw [exec_hwr_of_ne_cmd hcmd, State.dataWrite, if_pos hw, if_neg busy]

/-- Settles O14, by what the address names: a W-IDLE register, or neither that nor `CMD`. -/
theorem hostWriteIsDroppedOutsideIdle : Obligations.HostWriteIsDroppedOutsideIdle :=
  fun s _ v => ⟨fun busy ha => exec_hwr_of_not_idle busy ha v, fun hcmd ha => exec_hwr_of_not_writable hcmd ha s v⟩

/-! ### InvalidInputLength (R191, R198) -/

/-- The input check passes wherever R191 raises no exception. -/
theorem inputsOk_of_not_illegal {s : State} {max : Nat} (h : ¬ (max < s.ivlen.toNat ∨ s.ctblks.toNat < 2)) :
    s.inputsOk max = true := by
  rw [s.inputsOk_iff]; omega

/-- Taking the exception ends the run: ERROR is terminal (R196, R198). -/
theorem done_raiseInvalidInputLength (s : State) : s.raiseInvalidInputLength.done = true := rfl

/-- Settles O22: per command, the exception where the input check fails, and the command's own effect where it passes. -/
theorem invalidInputLengthIsTaken : Obligations.InvalidInputLengthIsTaken := by
  intro s idle
  refine ⟨fun bad => ?initCdRaises, fun bad => ?initLfRaises, fun missing => ?testRaises, ?done,
    fun ok => ?initCdStarts, fun ok => ?initLfStarts, fun present => ?testStays⟩
  case initCdRaises => exact exec_initCd_of_illegal_length idle (not_inputsOk bad)
  case initLfRaises => exact exec_initLf_of_illegal_length idle (not_inputsOk bad)
  case testRaises => exact exec_test_of_missing_block idle missing
  case done => exact done_raiseInvalidInputLength s
  case initCdStarts =>
    exact ⟨_, exec_initCd_of_ok idle (inputsOk_of_not_illegal ok), s.initCountdown_state, s.initCountdown_cause⟩
  case initLfStarts =>
    exact ⟨_, exec_initLf_of_ok idle (inputsOk_of_not_illegal ok), s.initLfsr_state, s.initLfsr_cause⟩
  case testStays =>
    exact ⟨_, exec_test_of_ok idle (Nat.le_of_not_lt present), s.oracle_state.trans idle, s.oracle_cause⟩

end Sys2Proof.Proofs
end

section
/-! The reset event (R220). -/

namespace Sys2Proof.Proofs

open Sys2Proof Sys2Proof.Machine

/-- The whole state a reset leaves: of the state before it, only the model's own fields stay (assumption log 3). -/
theorem applyReset_eq_reset_with (s : State) :
    s.applyReset = { State.reset with schedule := s.schedule, rounds := s.rounds, rdata := s.rdata, draws := s.draws } :=
  rfl

/-- Settles O6: the step is a reset of the state with the event taken off. -/
theorem stepTakesTheReset : Obligations.StepTakesTheReset := by
  intro s rest hs
  rw [step_of_rst (nextEvent_of_schedule hs), applyReset_eq_reset_with, advance_of_schedule hs]

end Sys2Proof.Proofs
end

section
/-! Multiplication in GF(2^8) (R172): `gmul` is a commutative, associative product with unit 1 that distributes over XOR.
All of it follows from one fact: a map that commutes with XOR and `xtime` commutes with the product. -/

namespace Sys2Proof.Proofs

open Sys2Proof Sys2Proof.Machine

/-! ### `xtime` and the product on the left -/

@[simp] theorem xtime_zero : xtime 0 = 0 := rfl

/-- Multiplication by 0x02 distributes over XOR: the reductions by 0x1B of the two summands cancel when both overflow. -/
theorem xtime_xor (a b : Byte) : xtime (a ^^^ b) = xtime a ^^^ xtime b := by
  unfold xtime
  rw [BitVec.getLsbD_xor, BitVec.shiftLeft_xor_distrib]
  cases a.getLsbD 7 <;> cases b.getLsbD 7
  case false.false => rfl
  case false.true => exact BitVec.xor_assoc ..
  case true.false => change a <<< 1 ^^^ b <<< 1 ^^^ 0x1B#8 = a <<< 1 ^^^ 0x1B#8 ^^^ b <<< 1; ac_rfl
  case true.true =>
    calc a <<< 1 ^^^ b <<< 1
      _ = a <<< 1 ^^^ b <<< 1 ^^^ (0x1B#8 ^^^ 0x1B#8) := by rw [BitVec.xor_self, BitVec.xor_zero]
      _ = a <<< 1 ^^^ 0x1B#8 ^^^ (b <<< 1 ^^^ 0x1B#8) := by ac_rfl

/-- A map of bytes that commutes with XOR and with multiplication by 0x02. -/
structure XtimeLinear (f : Byte → Byte) : Prop where
  map_xor : ∀ x y, f (x ^^^ y) = f x ^^^ f y
  map_xtime : ∀ x, f (xtime x) = xtime (f x)

theorem XtimeLinear.map_zero {f : Byte → Byte} (hf : XtimeLinear f) : f 0 = 0 := by
  simpa using hf.map_xor 0 0

/-- Such a map passes through the product: `f` is applied to each term `xtime^i(a)` of the sum. -/
theorem XtimeLinear.map_gmulFrom {f : Byte → Byte} (hf : XtimeLinear f) (a b : Byte) (n : Nat) :
    f (gmulFrom a b n) = gmulFrom (f a) b n := by
  induction n generalizing a b with
  | zero => exact hf.map_zero
  | succ n ih => rw [gmulFrom, gmulFrom, hf.map_xor, ih, hf.map_xtime, apply_ite f, hf.map_zero]

theorem gmulFrom_xor_left (a b c : Byte) (n : Nat) :
    gmulFrom (a ^^^ b) c n = gmulFrom a c n ^^^ gmulFrom b c n := by
  induction n generalizing a b c with
  | zero => exact BitVec.xor_zero.symm
  | succ n ih =>
    rw [gmulFrom, gmulFrom, gmulFrom, xtime_xor, ih]
    split
    · ac_rfl
    · simp

theorem gmulFrom_xtime_left (a c : Byte) (n : Nat) : gmulFrom (xtime a) c n = xtime (gmulFrom a c n) := by
  induction n generalizing a c with
  | zero => exact xtime_zero.symm
  | succ n ih => rw [gmulFrom, gmulFrom, xtime_xor, ih, apply_ite xtime, xtime_zero]

/-- Multiplication by a fixed right factor is such a map. -/
theorem xtimeLinear_gmul (c : Byte) : XtimeLinear (gmul · c) :=
  ⟨fun a b => gmulFrom_xor_left a b c 8, fun a => gmulFrom_xtime_left a c 8⟩

/-! ### The laws of the product -/

theorem one_gmul (a : Byte) : gmul 1 a = a := by
  revert a; decide +kernel

theorem gmul_right_comm (a b c : Byte) : gmul (gmul a b) c = gmul (gmul a c) b :=
  (xtimeLinear_gmul c).map_gmulFrom a b 8

theorem gmul_comm (a b : Byte) : gmul a b = gmul b a := by
  simpa only [one_gmul] using gmul_right_comm 1 a b

theorem gmul_assoc (a b c : Byte) : gmul (gmul a b) c = gmul a (gmul b c) := by
  rw [gmul_comm a b, gmul_right_comm, gmul_comm]

theorem gmul_one (a : Byte) : gmul a 1 = a := by rw [gmul_comm, one_gmul]

theorem gmul_zero (a : Byte) : gmul a 0 = 0 := by rw [gmul_comm, (xtimeLinear_gmul a).map_zero]

theorem gmul_xor_left (a b c : Byte) : gmul (a ^^^ b) c = gmul a c ^^^ gmul b c := (xtimeLinear_gmul c).map_xor a b

theorem gmul_xor_right (a b c : Byte) : gmul a (b ^^^ c) = gmul a b ^^^ gmul a c := by
  simp only [gmul_comm a, gmul_xor_left]

/-- A byte has at most one inverse. -/
theorem gmul_inverse_unique {a b c : Byte} (hb : gmul a b = 1) (hc : gmul a c = 1) : b = c :=
  calc b = gmul b (gmul a c) := by rw [hc, gmul_one]
    _ = gmul (gmul a b) c := by rw [← gmul_assoc, gmul_comm b a]
    _ = c := by rw [hb, one_gmul]

end Sys2Proof.Proofs
end

section
/-! The S-box (R173). -/

namespace Sys2Proof.Proofs

open Sys2Proof Sys2Proof.Machine

/-- The affine map of R173. -/
def sboxAffine (b : Byte) : Byte :=
  b ^^^ b.rotateLeft 1 ^^^ b.rotateLeft 2 ^^^ b.rotateLeft 3 ^^^ b.rotateLeft 4 ^^^ 0x63

/-- The inverse of the affine map. -/
def sboxAffineInverse (y : Byte) : Byte := y.rotateLeft 1 ^^^ y.rotateLeft 3 ^^^ y.rotateLeft 6 ^^^ 0x05

theorem sboxAffine_sboxAffineInverse (y : Byte) : sboxAffine (sboxAffineInverse y) = y := by
  revert y; decide +kernel

/-- What the table holds: undoing the affine map on the entry of `a ≠ 0` gives an inverse of `a`. -/
theorem gmul_sboxAffineInverse_sbox (a : Byte) : a ≠ 0 → gmul a (sboxAffineInverse (sbox a)) = 1 := by
  revert a; decide +kernel

theorem sbox_zero : sbox 0 = sboxAffine 0 := by decide

theorem invSbox_sbox (a : Byte) : invSbox (sbox a) = a := by
  revert a; decide +kernel

theorem sbox_invSbox (a : Byte) : sbox (invSbox a) = a := by
  revert a; decide +kernel

theorem ne_zero_of_gmul_eq_one {a b : Byte} (h : gmul a b = 1) : a ≠ 0 := by
  rintro rfl
  rw [gmul_comm, gmul_zero] at h
  exact absurd h (by decide)

/-- Inverses are unique, so any inverse of `a` is the one the table holds. -/
theorem sbox_of_gmul_eq_one {a b : Byte} (h : gmul a b = 1) : sbox a = sboxAffine b := by
  have hb : b = sboxAffineInverse (sbox a) :=
    gmul_inverse_unique h (gmul_sboxAffineInverse_sbox a (ne_zero_of_gmul_eq_one h))
  rw [hb, sboxAffine_sboxAffineInverse]

/-- Settles O35: the table at an inverse pair and at 0, the inverse read off the table, and the two tables' compositions. -/
theorem sboxIsTheAffineInverse : Obligations.SboxIsTheAffineInverse := by
  refine ⟨?affine, fun a ha => ⟨_, gmul_sboxAffineInverse_sbox a ha⟩, fun a => ⟨invSbox_sbox a, sbox_invSbox a⟩⟩
  case affine =>
    rintro a b (h | ⟨rfl, rfl⟩)
    · exact sbox_of_gmul_eq_one h
    · exact sbox_zero

end Sys2Proof.Proofs
end

section
/-! `AES128_DEC` inverts `AES128_ENC` (R170): every round transformation is undone by its inverse, and the inverse cipher
undoes the rounds from the last to the first. The round transformations are read on the state `s[r][c]` of R171. -/

namespace Sys2Proof.Proofs

open Sys2Proof Sys2Proof.Machine

/-! ### The state of R171 -/

/-- `s[r][c]`, the byte of row `r` and column `c` (R171). -/
def cell (s : Block) (r c : Fin 4) : Byte := s[r.val + 4 * c.val]'(by omega)

theorem cell_ofFn (f : Fin 16 → Byte) (r c : Fin 4) : cell (Vector.ofFn f) r c = f ⟨r.val + 4 * c.val, by omega⟩ :=
  Vector.getElem_ofFn ..

/-- The byte at array position `r + 4c` is `s[r][c]`. -/
theorem getElem_eq_cell {s : Block} {i : Nat} {hi : i < 16} (r c : Fin 4) (h : i = r.val + 4 * c.val) :
    s[i] = cell s r c := by
  subst h; rfl

theorem block_ext_cell {s t : Block} (h : ∀ r c, cell s r c = cell t r c) : s = t := by
  refine Vector.ext fun i hi => ?_
  have hrc : i = i % 4 + 4 * (i / 4) := (Nat.mod_add_div i 4).symm
  rw [getElem_eq_cell ⟨i % 4, by omega⟩ ⟨i / 4, by omega⟩ hrc, getElem_eq_cell ⟨i % 4, by omega⟩ ⟨i / 4, by omega⟩ hrc, h]

/-! ### The round transformations -/

theorem cell_subBytes (s : Block) (r c : Fin 4) : cell (subBytes s) r c = sbox (cell s r c) := cell_ofFn ..

theorem cell_invSubBytes (s : Block) (r c : Fin 4) : cell (invSubBytes s) r c = invSbox (cell s r c) := cell_ofFn ..

theorem cell_addRoundKey (s rk : Block) (r c : Fin 4) : cell (addRoundKey s rk) r c = cell s r c ^^^ cell rk r c :=
  cell_ofFn ..

theorem cell_shiftRows (s : Block) (r c : Fin 4) : cell (shiftRows s) r c = cell s r (c + r) := by
  simp only [shiftRows, cell_ofFn]
  exact getElem_eq_cell r (c + r) (by rw [Fin.val_add]; omega)

theorem cell_invShiftRows (s : Block) (r c : Fin 4) : cell (invShiftRows s) r c = cell s r (c - r) := by
  simp only [invShiftRows, cell_ofFn]
  exact getElem_eq_cell r (c - r) (by rw [Fin.val_sub]; omega)

/-- A column transformation at `s[r][c]` reads column `c` from row `r` on, rows modulo 4 (the pattern of R178). -/
theorem cell_circulant (m0 m1 m2 m3 : Byte) (s : Block) (r c : Fin 4) :
    cell (circulant m0 m1 m2 m3 s) r c =
      gmul (cell s r c) m0 ^^^ gmul (cell s (r + 1) c) m1 ^^^ gmul (cell s (r + 2) c) m2 ^^^ gmul (cell s (r + 3) c) m3 := by
  have row (k : Nat) {l : Fin 4} (hl : l.val = k) :
      4 * ((r.val + 4 * c.val) / 4) + (r.val + 4 * c.val + k) % 4 = (r + l).val + 4 * c.val := by
    rw [Fin.val_add]; omega
  simp only [circulant, cell_ofFn]
  rw [getElem_eq_cell r c (by omega), getElem_eq_cell (r + 1) c (row 1 rfl),
    getElem_eq_cell (r + 2) c (row 2 rfl), getElem_eq_cell (r + 3) c (row 3 rfl)]

theorem invSubBytes_subBytes (s : Block) : invSubBytes (subBytes s) = s :=
  block_ext_cell fun r c => by rw [cell_invSubBytes, cell_subBytes, invSbox_sbox]

theorem invShiftRows_shiftRows (s : Block) : invShiftRows (shiftRows s) = s :=
  block_ext_cell fun r c => by rw [cell_invShiftRows, cell_shiftRows, sub_add_cancel]

theorem addRoundKey_addRoundKey (s rk : Block) : addRoundKey (addRoundKey s rk) rk = s :=
  block_ext_cell fun r c => by rw [cell_addRoundKey, cell_addRoundKey, BitVec.xor_assoc, BitVec.xor_self, BitVec.xor_zero]

/-- The circulants of R178 are inverse: `0E, 0B, 0D, 09` after `02, 03, 01, 01` gives back the first byte of the column. -/
theorem invMixColumn_mixColumn (a b c d : Byte) :
    gmul (gmul a 0x02 ^^^ gmul b 0x03 ^^^ gmul c 0x01 ^^^ gmul d 0x01) 0x0E ^^^
      gmul (gmul b 0x02 ^^^ gmul c 0x03 ^^^ gmul d 0x01 ^^^ gmul a 0x01) 0x0B ^^^
      gmul (gmul c 0x02 ^^^ gmul d 0x03 ^^^ gmul a 0x01 ^^^ gmul b 0x01) 0x0D ^^^
      gmul (gmul d 0x02 ^^^ gmul a 0x03 ^^^ gmul b 0x01 ^^^ gmul c 0x01) 0x09 = a := by
  have ha : gmul 0x02 0x0E ^^^ gmul 0x01 0x0B ^^^ gmul 0x01 0x0D ^^^ gmul 0x03 0x09 = 1 := by decide
  have hb : gmul 0x03 0x0E ^^^ gmul 0x02 0x0B ^^^ gmul 0x01 0x0D ^^^ gmul 0x01 0x09 = 0 := by decide
  have hc : gmul 0x01 0x0E ^^^ gmul 0x03 0x0B ^^^ gmul 0x02 0x0D ^^^ gmul 0x01 0x09 = 0 := by decide
  have hd : gmul 0x01 0x0E ^^^ gmul 0x01 0x0B ^^^ gmul 0x03 0x0D ^^^ gmul 0x02 0x09 = 0 := by decide
  calc _
    _ = gmul a (gmul 0x02 0x0E ^^^ gmul 0x01 0x0B ^^^ gmul 0x01 0x0D ^^^ gmul 0x03 0x09) ^^^
        gmul b (gmul 0x03 0x0E ^^^ gmul 0x02 0x0B ^^^ gmul 0x01 0x0D ^^^ gmul 0x01 0x09) ^^^
        gmul c (gmul 0x01 0x0E ^^^ gmul 0x03 0x0B ^^^ gmul 0x02 0x0D ^^^ gmul 0x01 0x09) ^^^
        gmul d (gmul 0x01 0x0E ^^^ gmul 0x01 0x0B ^^^ gmul 0x03 0x0D ^^^ gmul 0x02 0x09) := by
      simp only [gmul_xor_left, gmul_xor_right, gmul_assoc]
      ac_rfl
    _ = a := by rw [ha, hb, hc, hd, gmul_one, gmul_zero, gmul_zero, gmul_zero]; simp

theorem invMixColumns_mixColumns (s : Block) : invMixColumns (mixColumns s) = s :=
  block_ext_cell fun r c => by
    simp only [invMixColumns, mixColumns, cell_circulant, add_assoc, Fin.reduceAdd, add_zero]
    exact invMixColumn_mixColumn ..

/-! ### The rounds -/

/-- A round is undone from the next `SubBytes` and `ShiftRows` on, which the inverse round takes off first (R179). -/
theorem invRound_fwdRound (s rk : Block) :
    invRound (shiftRows (subBytes (fwdRound s rk))) rk = shiftRows (subBytes s) := by
  rw [invRound, invShiftRows_shiftRows, invSubBytes_subBytes, fwdRound, addRoundKey_addRoundKey, invMixColumns_mixColumns]

/-- `n + 1` rounds are `n` rounds and one more: the forward cipher counts from the first, the inverse from the last. -/
theorem fwdRounds_succ (ws : List Word4) (r n : Nat) (s : Block) :
    fwdRounds ws r (n + 1) s = fwdRound (fwdRounds ws r n s) (roundKey ws (r + n)) := by
  induction n generalizing r s with
  | zero => rfl
  | succ n ih => rw [fwdRounds, ih, fwdRounds, Nat.add_right_comm, Nat.add_assoc]

theorem invRounds_fwdRounds (ws : List Word4) (n : Nat) (s : Block) :
    invRounds ws n (shiftRows (subBytes (fwdRounds ws 1 n s))) = shiftRows (subBytes s) := by
  induction n with
  | zero => rfl
  | succ n ih => rw [fwdRounds_succ, invRounds, Nat.add_comm 1 n, invRound_fwdRound, ih]

/-- The inverse cipher undoes the forward cipher on any key-schedule words. -/
theorem aesInverse_aesForward (ws : List Word4) (p : Block) : aesInverse ws (aesForward ws p) = p := by
  rw [aesInverse, aesForward, addRoundKey_addRoundKey, invRounds_fwdRounds, invShiftRows_shiftRows, invSubBytes_subBytes,
    addRoundKey_addRoundKey]

/-- Settles O36: both ciphers run on the words of the same key. -/
theorem aesDecryptionInvertsEncryption : Obligations.AesDecryptionInvertsEncryption := by
  intro p k
  rw [aes128Dec, aes128Enc, aesInverse_aesForward]

/-! ### The published examples (R181) -/

/-- A block that encrypts to `c` is what `c` decrypts to. -/
theorem aes128Dec_of_aes128Enc {p c k : Block} (h : aes128Enc p k = c) : aes128Dec c k = p :=
  h ▸ aesDecryptionInvertsEncryption p k

/-- Settles O34: the model is run on the two encryptions; the decryptions follow. -/
theorem aesCheckValues : Obligations.AesCheckValues := by
  unfold Obligations.AesCheckValues
  intro k1 p1 c1 k2 p2 c2
  have h1 : aes128Enc p1 k1 = c1 := by decide +kernel
  have h2 : aes128Enc p2 k2 = c2 := by decide +kernel
  exact ⟨h1, aes128Dec_of_aes128Enc h1, h2, aes128Dec_of_aes128Enc h2⟩

end Sys2Proof.Proofs
end
